-- ==== Sys2Proof/Word.lean ====
section
/-! DEFINITION. The word types of the TK-40 (00_scope.md, Conventions): bytes, addresses, the 24-bit modular
positions and acceptance sequences, the 16-bit launch numbers and the 32-bit serials and piece ids. -/

namespace Sys2Proof

/-- One byte of page memory. -/
abbrev Byte := BitVec 8

/-- A 32-bit byte address of page memory. -/
abbrev Addr := BitVec 32

/-- A value of the 24-bit position counter (R21). -/
abbrev Pos := BitVec 24

/-- A 24-bit acceptance sequence (01_sheet_orders, R14). -/
abbrev Seq := BitVec 24

/-- A 32-bit serial number (R154). -/
abbrev Serial := BitVec 32

/-- A 16-bit launch number (R61, R74). -/
abbrev Launch := BitVec 16

/-- A 32-bit piece id (R11). -/
abbrev PieceId := BitVec 32

end Sys2Proof
end

