-- ==== Sys2Proof/Syntax.lean ====
section
/-! DEFINITION. The commands of the block: one constructor of `Instr` for each row of spec/opcode_table.json, and
the enumerations their operands use. The table gives the rows no bits; the operands are what the row's rule needs
from outside the block (an access, the bytes memory returned, the line that changed, the item that is taken). -/

namespace Sys2Proof

/-- The twelve stations of the paper path, with the codes 1 to 12 of 12_record_and_order_formats.md. -/
inductive Station where
  | feed1 | feed2 | feed3 | feed4 | reg | xfer | fuse | loopin | loopout | stka | stkb | purge
  deriving DecidableEq, Repr, Inhabited

/-- An edge kind: leading edge (LE) or trailing edge (TE). -/
inductive Edge where
  | le | te
  deriving DecidableEq, Repr, Inhabited

/-- The two production stackers, STKA and STKB. -/
inductive Stacker where
  | a | b
  deriving DecidableEq, Repr, Inhabited

/-- The outcome of the access policy for a write (R133, R137). -/
inductive PolicyOutcome where
  | pass | drop | error
  deriving DecidableEq, Repr, Inhabited

/-- The blocks that hand accesses to the own-access FIFO (R141). -/
inductive OwnBlock where
  | fetcher | setup | report | history
  deriving DecidableEq, Repr, Inhabited

/-- The commands of the TK-40: the rows of spec/opcode_table.json, in the table's order. -/
inductive Instr where
  /-- BOARD_BUS_WRITE (R133): the address, the bytes written (their number is the length) and the initiator tag. -/
  | boardBusWrite (addr : Addr) (data : List Byte) (tag : BitVec 3)
  /-- BOARD_BUS_READ (R131): the address, the length and the initiator tag. -/
  | boardBusRead (addr : Addr) (len : Nat) (tag : BitVec 3)
  /-- MEMORY_PORT_GRANT (R142). -/
  | memoryPortGrant
  /-- ORDER_POST (R1): the granted forwarded write, which is a post, completes OK. -/
  | orderPost
  /-- COMMIT_WRITE (R146): the granted forwarded write, which is a commit write, completes OK. -/
  | commitWrite
  /-- TAIL_WRITE (R139): the granted forwarded write, which touches the tail value, completes OK. -/
  | tailWrite
  /-- FORWARDED_WRITE_COMPLETE (R131): the granted forwarded write completes, OK or ERROR. -/
  | forwardedWriteComplete (ok : Bool)
  /-- FORWARDED_READ_COMPLETE (R103): the granted forwarded read completes, OK with memory's bytes or ERROR. -/
  | forwardedReadComplete (ok : Bool) (data : List Byte)
  /-- SLOT_READ_ISSUE (R2). -/
  | slotReadIssue
  /-- STALE_POST (R4): the 64 bytes the slot read returned. -/
  | stalePost (slot : List Byte)
  /-- KIND_UNKNOWN (R7): the 64 bytes the slot read returned. -/
  | kindUnknown (slot : List Byte)
  /-- SHEET (R14): the 64 bytes the slot read returned. -/
  | sheet (slot : List Byte)
  /-- HOLD (R46): the 64 bytes the slot read returned. -/
  | hold (slot : List Byte)
  /-- RESUME (R48): the 64 bytes the slot read returned. -/
  | resume (slot : List Byte)
  /-- STANDBY (R47): the 64 bytes the slot read returned. -/
  | standby (slot : List Byte)
  /-- CLEARED (R49): the 64 bytes the slot read returned. -/
  | cleared (slot : List Byte)
  /-- CANCEL (R123): the 64 bytes the slot read returned. -/
  | cancel (slot : List Byte)
  /-- WATCH (R166): the 64 bytes the slot read returned. -/
  | watch (slot : List Byte)
  /-- DUMP (R172): the 64 bytes the slot read returned. -/
  | dump (slot : List Byte)
  /-- TALLY (R155): the 64 bytes the slot read returned. -/
  | tally (slot : List Byte)
  /-- OWN_ACCESS_HANDOVER (R141): the block that waited for room. -/
  | ownAccessHandover (block : OwnBlock)
  /-- POST_WORD_WRITEBACK_COMPLETE (R5). -/
  | postWordWritebackComplete
  /-- SETUP_FETCH_READ_COMPLETE (R147): the 64 bytes the read returned. -/
  | setupFetchReadComplete (data : List Byte)
  /-- SETUP_DECISION (R148). -/
  | setupDecision
  /-- RECORD_WRITE_ISSUE (R159). -/
  | recordWriteIssue
  /-- RECORD_WRITE_COMPLETE (R159). -/
  | recordWriteComplete
  /-- HEAD_WORD_WRITE_ISSUE (R160). -/
  | headWordWriteIssue
  /-- HEAD_WORD_WRITE_COMPLETE (R160). -/
  | headWordWriteComplete
  /-- DUMP_WRITE_COMPLETE (R172). -/
  | dumpWriteComplete
  /-- OWN_ACCESS_ERROR (R143). -/
  | ownAccessError
  /-- ENC_PULSE (R21). -/
  | encPulse
  /-- TICK (R50). -/
  | tick
  /-- ENCODER_LOSS (R51): the tick on which the silence count reaches the loss limit. -/
  | encoderLoss
  /-- START_TIMER_EXPIRY (R42): the tick on which the start timer expires. -/
  | startTimerExpiry
  /-- TREADY_RISE (R42). -/
  | treadyRise
  /-- TREADY_FALL (R43). -/
  | treadyFall
  /-- COVER_RISE (R41). -/
  | coverRise
  /-- COVER_FALL (R43). -/
  | coverFall
  /-- TRAYRDY_CHANGE (R57): the tray's line, 0 for TRAYRDY1, and its new level. -/
  | trayrdyChange (tray : Fin 4) (level : Bool)
  /-- STKFULL_CHANGE (R57): the stacker and its line's new level. -/
  | stkfullChange (stacker : Stacker) (level : Bool)
  /-- SENSOR_LEVEL_CHANGE (R29): the sensor line and its new raw level. -/
  | sensorLevelChange (line : Fin 16) (level : Bool)
  /-- DEBOUNCE_COMPLETION (R29): the sensor line whose pending change completes. -/
  | debounceCompletion (line : Fin 16)
  /-- EXPECTATION_EXPIRY (R23): the expectation that expires. -/
  | expectationExpiry (launch : Launch) (station : Station) (edge : Edge)
  /-- DIV (R78): the entry whose DIV event fires. -/
  | div (launch : Launch)
  /-- PARK (R81): the entry whose PARK event fires. -/
  | park (launch : Launch)
  /-- TOP (R101): the entry whose TOP event fires. -/
  | top (launch : Launch)
  /-- UNDERRUN_CHECK (R104): the entry whose underrun check fires. -/
  | underrunCheck (launch : Launch)
  /-- GAP_WAIT (R69). -/
  | gapWait
  /-- IDLE_WAIT (R45). -/
  | idleWait
  /-- SYSTEM_RESET (R153): the level of the straps BASE[3:0] at the end of the reset (R145). -/
  | systemReset (base : BitVec 4)
  /-- POWER_ON_RESET (R154): the level of the straps BASE[3:0] at the end of the reset (R145). -/
  | powerOnReset (base : BitVec 4)
  deriving DecidableEq, Repr

/-- The row of spec/opcode_table.json that a constructor stands for, as the table spells it. -/
def Instr.mnemonic : Instr → String
  | .boardBusWrite _ _ _ => "BOARD_BUS_WRITE"
  | .boardBusRead _ _ _ => "BOARD_BUS_READ"
  | .memoryPortGrant => "MEMORY_PORT_GRANT"
  | .orderPost => "ORDER_POST"
  | .commitWrite => "COMMIT_WRITE"
  | .tailWrite => "TAIL_WRITE"
  | .forwardedWriteComplete _ => "FORWARDED_WRITE_COMPLETE"
  | .forwardedReadComplete _ _ => "FORWARDED_READ_COMPLETE"
  | .slotReadIssue => "SLOT_READ_ISSUE"
  | .stalePost _ => "STALE_POST"
  | .kindUnknown _ => "KIND_UNKNOWN"
  | .sheet _ => "SHEET"
  | .hold _ => "HOLD"
  | .resume _ => "RESUME"
  | .standby _ => "STANDBY"
  | .cleared _ => "CLEARED"
  | .cancel _ => "CANCEL"
  | .watch _ => "WATCH"
  | .dump _ => "DUMP"
  | .tally _ => "TALLY"
  | .ownAccessHandover _ => "OWN_ACCESS_HANDOVER"
  | .postWordWritebackComplete => "POST_WORD_WRITEBACK_COMPLETE"
  | .setupFetchReadComplete _ => "SETUP_FETCH_READ_COMPLETE"
  | .setupDecision => "SETUP_DECISION"
  | .recordWriteIssue => "RECORD_WRITE_ISSUE"
  | .recordWriteComplete => "RECORD_WRITE_COMPLETE"
  | .headWordWriteIssue => "HEAD_WORD_WRITE_ISSUE"
  | .headWordWriteComplete => "HEAD_WORD_WRITE_COMPLETE"
  | .dumpWriteComplete => "DUMP_WRITE_COMPLETE"
  | .ownAccessError => "OWN_ACCESS_ERROR"
  | .encPulse => "ENC_PULSE"
  | .tick => "TICK"
  | .encoderLoss => "ENCODER_LOSS"
  | .startTimerExpiry => "START_TIMER_EXPIRY"
  | .treadyRise => "TREADY_RISE"
  | .treadyFall => "TREADY_FALL"
  | .coverRise => "COVER_RISE"
  | .coverFall => "COVER_FALL"
  | .trayrdyChange _ _ => "TRAYRDY_CHANGE"
  | .stkfullChange _ _ => "STKFULL_CHANGE"
  | .sensorLevelChange _ _ => "SENSOR_LEVEL_CHANGE"
  | .debounceCompletion _ => "DEBOUNCE_COMPLETION"
  | .expectationExpiry _ _ _ => "EXPECTATION_EXPIRY"
  | .div _ => "DIV"
  | .park _ => "PARK"
  | .top _ => "TOP"
  | .underrunCheck _ => "UNDERRUN_CHECK"
  | .gapWait => "GAP_WAIT"
  | .idleWait => "IDLE_WAIT"
  | .systemReset _ => "SYSTEM_RESET"
  | .powerOnReset _ => "POWER_ON_RESET"

end Sys2Proof
end

