-- ==== Sys2Proof/Config.lean ====
section
/-! DEFINITION. What the spec leaves open and the model leaves free: constants without a body. -/

namespace Sys2Proof

/-- The policy outcome that a WATCH_HIT reports for an access completed ERROR because its bytes leave one 64-byte
block, once a setup is in force (UNVERIFIED: R170 says only "its policy outcome (PASS, DROP or ERROR, or PASS in
UNSET)" and such an access is not judged, R131). Free: a function of the access's address, length and direction
(true for a write). Safe. Log entry 1. -/
opaque Config.crossingOutcome : Nat → Nat → Bool → PolicyOutcome

end Sys2Proof
end

