-- ==== Sys2Proof/Machine/Types.lean ====
section
/-! DEFINITION. The plain data that the machine's state is made of: the setup, the logical sheet, the path entry, the
expectation item, the watch unit, the history entry, the records and the controller's own accesses. -/

namespace Sys2Proof.Machine

/-! ### Codes and modes -/

/-- The run state (R38), with the codes 0 to 5 of 12_record_and_order_formats.md. -/
inductive RunState where
  | unset | idle | starting | running | draining | stopped
  deriving DecidableEq, Repr, Inhabited

/-- The stop causes (R43, R111). -/
inductive StopCause where
  | early | late | stray | short | long | transportStart | transportLost | coverOpen | encoderLost | encoderDrained
  | memory
  deriving DecidableEq, Repr, Inhabited

/-- The initiator classes (R132). -/
inductive InitClass where
  | processor | channel | imager | other
  deriving DecidableEq, Repr, Inhabited

/-- The recovery mode of the setup (R88, R90). -/
inductive RecoveryMode where
  | sheet | piece
  deriving DecidableEq, Repr, Inhabited

/-- The loss action of the setup (R51). -/
inductive LossAction where
  | stop | drain
  deriving DecidableEq, Repr, Inhabited

/-- Simplex or duplex. -/
inductive Plex where
  | simplex | duplex
  deriving DecidableEq, Repr, Inhabited

/-- The side of a sheet (R98). -/
inductive Side where
  | front | back
  deriving DecidableEq, Repr, Inhabited

/-- The leg of a path entry (R74). -/
inductive Leg where
  | first | second
  deriving DecidableEq, Repr, Inhabited

/-- The phase of a path entry (R74). -/
inductive Phase where
  | feeding | atGate | travel | parking | parked | refeeding | exiting
  deriving DecidableEq, Repr, Inhabited

/-- A route at the diverter (R78). An unset route is `none : Option Route`. -/
inductive Route where
  | loop | stka | stkb | purge
  deriving DecidableEq, Repr, Inhabited

/-- The reasons of a SHEET_SPOILED record (R95); the first three are the detach reasons of R112. -/
inductive SpoilReason where
  | underrun | cascade | cancelled | stop | atExit
  deriving DecidableEq, Repr, Inhabited

/-- The disposition of a delivery (R85). -/
inductive Disposition where
  | released | retained | committed | pieceComplete
  deriving DecidableEq, Repr, Inhabited

/-- The reasons of a rejected order (R7). -/
inductive RejectReason where
  | kindUnknown | kindDisabled | field | length | tray | plex | raster | output | pieceOrder | outputMix
  deriving DecidableEq, Repr, Inhabited

/-- The result codes of a control order (R18). -/
inductive ControlResult where
  | ok | notStopped | pathNotClear | noPiece | unitArmed | tallyDisabled | busy
  deriving DecidableEq, Repr, Inhabited

/-- The rows of POLICY records (R138). -/
inductive PolicyRow where
  | lockedRaster | reportArea | orderInflight | tailValue
  deriving DecidableEq, Repr, Inhabited

/-- The outcome field of a POLICY record (R138, R139). -/
inductive PolicyField where
  | drop | error | range | order | partialWrite
  deriving DecidableEq, Repr, Inhabited

/-- The outcomes of setup control (R152). -/
inductive SetupOutcome where
  | accepted | busy | memory | format | region | geometry | timing | loop
  deriving DecidableEq, Repr, Inhabited

/-- The fetch state of setup control (R146). -/
inductive FetchState where
  | idle | fetching | deciding
  deriving DecidableEq, Repr, Inhabited

/-! ### The setup in force -/

/-- One entry of the station table. -/
structure StationEntry where
  present : Bool
  line : Nat
  early : Nat
  late : Nat
  deriving DecidableEq, Repr, Inhabited

/-- One tray entry of the setup: the distances f_t and p_t from the pick. -/
structure TrayEntry where
  f : Nat
  p : Nat
  deriving DecidableEq, Repr, Inhabited

/-- One row of the policy table: a cell for each initiator class (R133). -/
structure PolicyCells where
  processor : PolicyOutcome
  channel : PolicyOutcome
  imager : PolicyOutcome
  other : PolicyOutcome
  deriving DecidableEq, Repr, Inhabited

/-- The configuration values of an accepted setup (09_setup_block_and_retained_tally.md; the byte layout stands in
12_record_and_order_formats.md). -/
structure Setup where
  orderBase : Nat
  orderSlots : Nat
  reportBase : Nat
  reportSlots : Nat
  controlBase : Nat
  recovery : RecoveryMode
  lossAction : LossAction
  pathDepth : Nat
  markLines : Nat
  gateDepth : Nat
  kindEnable : BitVec 16
  markEnable : Bool
  jogEnable : Bool
  tallyEnable : Bool
  classMap : Vector InitClass 8
  lockedRaster : PolicyCells
  reportArea : PolicyCells
  orderInflight : PolicyCells
  minGap : Nat
  margin : Nat
  startLimit : Nat
  lossLimit : Nat
  estRate : Nat
  linger : Nat
  trailTol : Nat
  debounce : Nat
  loopLength : Nat
  loopGap : Nat
  dLr : Nat
  dSettle : Nat
  dX : Nat
  dTop : Nat
  dF : Nat
  dDv : Nat
  dLi : Nat
  dA : Nat
  dB : Nat
  dP : Nat
  trays : Vector TrayEntry 4
  stations : Vector StationEntry 12
  deriving DecidableEq, Repr, Inhabited

/-! ### Bus accesses and the controller's own accesses -/

/-- A board bus access (08_pass_through, Forwarding). A read has no data. -/
structure Access where
  addr : Nat
  len : Nat
  write : Bool
  data : List Byte
  tag : BitVec 3
  deriving DecidableEq, Repr, Inhabited

/-- An access in the forward queue, with the class its tag had when it was taken (R132). -/
structure Forwarded where
  access : Access
  cls : InitClass
  deriving DecidableEq, Repr, Inhabited

/-- What an own access is for (R141). -/
inductive OwnKind where
  | slotRead | postWrite | setupRead (k : Nat) | recordWrite | headWrite (value : Nat) | dumpWrite (k : Nat)
  deriving DecidableEq, Repr, Inhabited

/-- An own access: its purpose, address and length, and the bytes of a write (none for a read). -/
structure OwnAccess where
  kind : OwnKind
  addr : Nat
  len : Nat
  data : List Byte
  deriving DecidableEq, Repr, Inhabited

/-- The access that the memory port carries (R142). -/
inductive Granted where
  | forwarded (f : Forwarded)
  | own (a : OwnAccess)
  deriving DecidableEq, Repr

/-- One entry of the lock table (R15). -/
structure Lock where
  seq : Seq
  side : Side
  base : Nat
  len : Nat
  deriving DecidableEq, Repr, Inhabited

/-! ### Logical sheets and pieces -/

/-- The side record of a SHEET order. -/
structure SideRec where
  base : Nat
  len : Nat
  stride : Nat
  image : Nat
  mark : Option Nat
  deriving DecidableEq, Repr, Inhabited

/-- A logical sheet: the whole content of an accepted SHEET order (R14). `tray` is 0 for tray 1. -/
structure LogicalSheet where
  seq : Seq
  piece : PieceId
  index : Nat
  last : Bool
  tray : Fin 4
  plex : Plex
  output : Stacker
  length : Nat
  tag : BitVec 32
  front : SideRec
  back : Option SideRec
  deriving DecidableEq, Repr, Inhabited

/-- The open piece record (R11). -/
structure OpenPiece where
  piece : PieceId
  lastIndex : Nat
  count : Nat
  output : Stacker
  firstSeq : Seq
  eligible : Bool
  deriving DecidableEq, Repr, Inhabited

/-- The stacker piece record (R87). -/
structure StackerPiece where
  piece : PieceId
  count : Nat
  firstSerial : Serial
  lastSerial : Serial
  committed : Bool
  deriving DecidableEq, Repr, Inhabited

/-! ### The path -/

/-- The print identity of a path entry, taken at the pick and kept after detaching (R74). -/
structure PrintIdentity where
  seq : Seq
  piece : PieceId
  index : Nat
  last : Bool
  tag : BitVec 32
  plex : Plex
  output : Stacker
  length : Nat
  deriving DecidableEq, Repr, Inhabited

/-- A path entry: one physical sheet in the path (R74). `sheet` is the logical sheet of an ATTACHED entry and `none`
for a DETACHED one. The entry's outstanding items are those of the expectation list that name its launch number. -/
structure PathEntry where
  launch : Launch
  sheet : Option LogicalSheet
  ident : PrintIdentity
  reason : Option SpoilReason
  serial : Option Serial
  leg : Leg
  phase : Phase
  route : Option Route
  blank : Bool
  pickPos : Pos
  refeedPos : Option Pos
  releasePos : Option Pos
  divTaken : Bool
  fuseReached : Bool
  deriving DecidableEq, Repr, Inhabited

/-- What an item of the expectation list waits for (R33). -/
inductive ItemKind where
  | edge (launch : Launch) (station : Station) (edge : Edge)
  | div (launch : Launch)
  | park (launch : Launch)
  | top (launch : Launch)
  | check (launch : Launch)
  | gap
  | idle
  deriving DecidableEq, Repr, Inhabited

/-- An item of the expectation list. `pos` is the expected position E of an edge expectation, or the event's own
position; the tolerances are 0 for a position event. -/
structure Item where
  kind : ItemKind
  pos : Pos
  early : Nat
  late : Nat
  deriving DecidableEq, Repr, Inhabited

/-- A pending level change of a sensor line (R29). -/
structure PendingChange where
  level : Bool
  stamp : Pos
  deriving DecidableEq, Repr, Inhabited

/-- The debounce state of a sensor line (R29). -/
structure Line where
  stable : Bool
  change : Option PendingChange
  deriving DecidableEq, Repr, Inhabited

/-! ### The current side -/

/-- The mark of a current side: the mark offset and the 16 expanded mark bytes (R106, R108). -/
structure Mark where
  offset : Nat
  bytes : List Byte
  deriving DecidableEq, Repr, Inhabited

/-- The current side (R98). -/
structure CurrentSide where
  launch : Launch
  side : Side
  base : Nat
  len : Nat
  stride : Nat
  mark : Option Mark
  topPos : Pos
  progress : Nat
  deriving DecidableEq, Repr, Inhabited

/-- The values on the side port (R102). -/
structure SidePort where
  base : Nat
  len : Nat
  stride : Nat
  deriving DecidableEq, Repr, Inhabited

/-! ### The fault snapshot -/

/-- The contents of the fault snapshot (R111). -/
structure Snapshot where
  cause : StopCause
  station : Option Station
  pos : Pos
  serial : Option Serial
  launch : Option Launch
  former : RunState
  deriving DecidableEq, Repr, Inhabited

/-! ### Watch units -/

/-- The watch units W0 and W1. -/
inductive UnitId where
  | w0 | w1
  deriving DecidableEq, Repr, Inhabited

/-- The direction setting of a BUS watch (R165). -/
inductive WatchDir where
  | read | write | either
  deriving DecidableEq, Repr, Inhabited

/-- The kinds of sheet events (R96, R168), with the codes 1 to 6. -/
inductive SheetEventKind where
  | le | te | release | top | deliver | spoil
  deriving DecidableEq, Repr, Inhabited

/-- The actions of a watch program (R165), with the codes 1 to 4. -/
inductive WatchAction where
  | report | hold | freeze | pulse
  deriving DecidableEq, Repr, Inhabited

/-- The source of a watch program with its settings (R165). A class or station or piece of `none` is ANY. -/
inductive WatchSource where
  | bus (addr mask : BitVec 32) (dir : WatchDir) (cls : Option InitClass)
  | sheet (event : SheetEventKind) (station : Option Station) (piece : Option PieceId)
  deriving DecidableEq, Repr, Inhabited

/-- A watch program (R165). -/
structure WatchProgram where
  source : WatchSource
  count : Nat
  afterW0 : Bool
  action : WatchAction
  keep : Bool
  deriving DecidableEq, Repr, Inhabited

/-- The state of a watch unit (R165). -/
inductive UnitState where
  | disarmed | waiting | armed | spent
  deriving DecidableEq, Repr, Inhabited

/-- A sheet event as it is offered (R168). -/
structure SheetEvent where
  kind : SheetEventKind
  station : Option Station
  piece : PieceId
  launch : Launch
  seq : Option Seq
  serial : Option Serial
  deriving DecidableEq, Repr, Inhabited

/-- A board bus access as it is offered (R167), with its class and policy outcome. -/
structure BusItem where
  addr : Nat
  len : Nat
  write : Bool
  tag : BitVec 3
  cls : InitClass
  outcome : PolicyOutcome
  deriving DecidableEq, Repr, Inhabited

/-- The matched item of a hit (R170). -/
inductive HitItem where
  | bus (b : BusItem)
  | sheet (e : SheetEvent)
  deriving DecidableEq, Repr, Inhabited

/-- The particulars of a hit (R170). -/
structure HitParticulars where
  unit : UnitId
  action : WatchAction
  pos : Pos
  runState : RunState
  hold : Bool
  item : HitItem
  deriving DecidableEq, Repr, Inhabited

/-- A watch unit (R165): its program, unit state, remaining count and pending hit. -/
structure WatchUnit where
  program : Option WatchProgram
  state : UnitState
  remaining : Nat
  hits : Nat
  first : Option HitParticulars
  deriving DecidableEq, Repr, Inhabited

/-! ### The event history -/

/-- The kind of a history entry with its detail (R171). -/
inductive HistKind where
  | pick (tray : Fin 4)
  | refeed (blank : Bool)
  | release (leg : Leg)
  | le
  | te
  | top (side : Side)
  | underrun (side : Side) (detached : Nat)
  | deliver (disposition : Disposition)
  | spoil (reason : SpoilReason)
  | stop (cause : StopCause)
  | cleared
  deriving DecidableEq, Repr, Inhabited

/-- A history entry (R171). -/
structure HistEntry where
  kind : HistKind
  station : Option Station
  serial : Option Serial
  seq : Option Seq
  launch : Option Launch
  pos : Pos
  runState : RunState
  deriving DecidableEq, Repr, Inhabited

/-- A dump in progress (R172, R173): its order, its snapshot, how many writes have been handed over and have
completed, and the first failed write. -/
structure Dump where
  dest : Nat
  unfreeze : Bool
  snapshot : List HistEntry
  held : Nat
  pos : Pos
  issued : Nat
  done : Nat
  failed : Option Nat
  deriving DecidableEq, Repr, Inhabited

/-! ### Records -/

/-- SHEET_DONE (R85). -/
structure SheetDoneRec where
  seq : Seq
  piece : PieceId
  index : Nat
  last : Bool
  tag : BitVec 32
  serial : Option Serial
  launch : Launch
  output : Stacker
  pos : Pos
  disposition : Disposition
  released : Nat
  deriving DecidableEq, Repr, Inhabited

/-- SHEET_SPOILED (R95). A place of `none` is PATH. -/
structure SheetSpoiledRec where
  seq : Seq
  piece : PieceId
  index : Nat
  last : Bool
  tag : BitVec 32
  serial : Option Serial
  launch : Launch
  leg : Leg
  blank : Bool
  reason : SpoilReason
  place : Option Station
  pos : Pos
  deriving DecidableEq, Repr, Inhabited

/-- PIECE_VOID (R122). -/
structure PieceVoidRec where
  piece : PieceId
  count : Nat
  first : Serial
  last : Serial
  deriving DecidableEq, Repr, Inhabited

/-- PIECE_CANCELLED (R126). The serials are `none` when the voided count is 0. -/
structure PieceCancelledRec where
  piece : PieceId
  pendingCount : Nat
  inPath : Nat
  voided : Nat
  first : Option Serial
  last : Option Serial
  committed : Bool
  deriving DecidableEq, Repr, Inhabited

/-- ORDER_REJECTED (R5). `sheet` holds piece id, index and tag for an order whose kind byte is SHEET. -/
structure OrderRejectedRec where
  slot : Nat
  kind : Byte
  reason : RejectReason
  sheet : Option (PieceId × Nat × BitVec 32)
  deriving DecidableEq, Repr, Inhabited

/-- CONTROL_DONE (R5). -/
structure ControlDoneRec where
  slot : Nat
  kind : Byte
  result : ControlResult
  deriving DecidableEq, Repr, Inhabited

/-- STATE (R39). -/
structure StateRec where
  old : RunState
  new : RunState
  cause : Option StopCause
  hold : Bool
  standby : Bool
  pos : Pos
  deriving DecidableEq, Repr, Inhabited

/-- FAULT (R117): the snapshot, the spoiled count and the estimate flag. -/
structure FaultRec where
  snapshot : Snapshot
  spoiled : Nat
  estimate : Bool
  deriving DecidableEq, Repr, Inhabited

/-- POLICY (R138, R139). `value` and `view` are the value written and the tail view of a TAIL_VALUE record; the value
is `none` for PARTIAL. -/
structure PolicyRec where
  row : PolicyRow
  outcome : PolicyField
  count : Nat
  mixed : Bool
  addr : Nat
  len : Nat
  tag : BitVec 3
  cls : InitClass
  value : Option Nat
  view : Option Nat
  deriving DecidableEq, Repr, Inhabited

/-- WATCH_HIT (R170, R174). -/
structure WatchHitRec where
  particulars : HitParticulars
  hits : Nat
  carried : Bool
  deriving DecidableEq, Repr, Inhabited

/-- TIMEBASE (R51, R54). -/
structure TimebaseRec where
  restored : Bool
  amount : Nat
  pos : Pos
  deriving DecidableEq, Repr, Inhabited

/-- The retained tally (R154). -/
structure Tally where
  nextSerial : Serial
  delivered : BitVec 32
  lastSerial : Serial
  lastPiece : PieceId
  valid : Bool
  deriving DecidableEq, Repr, Inhabited

/-- SETUP (R152). -/
structure SetupRec where
  outcome : SetupOutcome
  fetched : Byte
  inForce : Byte
  tally : Tally
  count : Nat
  deriving DecidableEq, Repr, Inhabited

/-- DUMP_DONE (R172, R173). `ok` is false for the outcome MEMORY. -/
structure DumpDoneRec where
  ok : Bool
  written : Nat
  held : Nat
  dest : Nat
  pos : Pos
  frozen : Bool
  deriving DecidableEq, Repr, Inhabited

/-- The thirteen kinds of records (12_record_and_order_formats.md). -/
inductive Record where
  | sheetDone (r : SheetDoneRec)
  | sheetSpoiled (r : SheetSpoiledRec)
  | pieceVoid (r : PieceVoidRec)
  | pieceCancelled (r : PieceCancelledRec)
  | orderRejected (r : OrderRejectedRec)
  | controlDone (r : ControlDoneRec)
  | state (r : StateRec)
  | fault (r : FaultRec)
  | policy (r : PolicyRec)
  | watchHit (r : WatchHitRec)
  | timebase (r : TimebaseRec)
  | setup (r : SetupRec)
  | dumpDone (r : DumpDoneRec)
  deriving DecidableEq, Repr, Inhabited

/-- A record of the outbound queue. `fixed` is set when its write is handed to the own-access FIFO: from then on it is
in writing and its contents are fixed; before, it is open (R158). -/
structure Queued where
  record : Record
  fixed : Bool
  deriving DecidableEq, Repr, Inhabited

/-- The report unit's outstanding write (R159): a record write or a head-word write. -/
inductive ReportWrite where
  | record | head
  deriving DecidableEq, Repr, Inhabited

/-- What is left of finishing a slot whose writeback waits for room in the own-access FIFO (R5, R141): the post word,
the order's record, and whether the open piece is to be cancelled after it (R12). -/
structure Finish where
  post : List Byte
  record : Option Record
  cancelOpen : Bool
  deriving DecidableEq, Repr, Inhabited

/-- What the block's output lines and its bus port gave in the last event: pulses, completions returned to
initiators, and an access that the full forward queue kept waiting (R131). `tray` is 0 for PICK1. -/
inductive Output where
  | pick (tray : Fin 4)
  | refeed
  | gate
  | top
  | wout
  | busDone (tag : BitVec 3) (ok : Bool) (data : List Byte)
  | busWaits (tag : BitVec 3)
  deriving DecidableEq, Repr, Inhabited

end Sys2Proof.Machine
end

