-- ==== Sys2Proof/Machine/State.lean ====
section
/-! DEFINITION. The machine's state, block by block as 00_scope.md names the blocks, the reasons a command can stop,
and the state after a power-on reset. -/

namespace Sys2Proof.Machine

/-- The reasons a command stops with a fault: none. The block has no fault that ends it; what goes wrong in it (an own
access error, a path fault, a rejected order) is an effect on its state, which its commands take. Safe. -/
inductive Fault where
  deriving DecidableEq, Repr

/-- The reasons a command is refused. -/
inductive Refusal where
  /-- Raised by an arm of `exec` for a command whose meaning is not written yet; no arm raises it now. Safe: a refused
  command proves nothing about the hardware. -/
  | notModelled (mnemonic : String)
  deriving DecidableEq, Repr

/-- The pass-through unit (R131 to R144): the forward queue, the own-access FIFO, the arbiter's wait count, the access
that the memory port carries, the lock table (R15) and the memory-error flag (R143). -/
@[ext]
structure PassState where
  fwd : List Forwarded
  own : List OwnAccess
  wait : Nat
  granted : Option Granted
  locks : List Lock
  memError : Bool
  deriving DecidableEq, Repr, Inhabited

/-- The order fetcher (R1 to R20): posted-slot map (indices ascending), next slot, slot in hand, deferred mark, open
piece record, schedule queue, acceptance sequence counter, and a finishing that waits for room (R5, R141). -/
@[ext]
structure FetchUnit where
  posted : List Nat
  next : Nat
  inHand : Option Nat
  deferred : Bool
  openPiece : Option OpenPiece
  schedule : List LogicalSheet
  counter : Seq
  finish : Option Finish
  deriving DecidableEq, Repr, Inhabited

/-- Run-state control (R38 to R49): run state, latches and start timer (the ticks counted, when it runs). -/
@[ext]
structure RunUnit where
  state : RunState
  hold : Bool
  standby : Bool
  timer : Option Nat
  deriving DecidableEq, Repr, Inhabited

/-- The timebase (R21, R50 to R54): P, A, estimate mode, silence count, estimate tick count. `pulsed` says that a pulse
has arrived since the previous tick (R50) and `restored` that this estimate mode has handed its RESTORED record (R54).
`owed` is the model's own: counts of travel taken in whose positions P has not reached yet, because an item due at P
has still to be taken (R21, log entry 2). -/
@[ext]
structure TimeUnit where
  pos : Pos
  acc : Nat
  estimate : Bool
  silence : Nat
  estTicks : Nat
  pulsed : Bool
  restored : Bool
  owed : Nat
  deriving DecidableEq, Repr, Inhabited

/-- The expectation unit (R23 to R37): the expectation list in order of due position, and the debounce state of the
sixteen sensor lines. -/
@[ext]
structure ExpectUnit where
  items : List Item
  lines : Vector Line 16
  deriving DecidableEq, Repr, Inhabited

/-- The feed planner (R55): staged entry, gap flag (true for MET), last release (position and length), last stacker
release (launch number and output, R62), launch counter, and the loop commitment U. -/
@[ext]
structure PlanUnit where
  staged : Option Launch
  gapMet : Bool
  lastRelease : Option (Pos × Nat)
  lastStacker : Option (Launch × Stacker)
  counter : Launch
  commitment : Nat
  deriving DecidableEq, Repr, Inhabited

/-- The path tracker (R74 to R97): path table in creation order, loop FIFO (launch numbers, head first), DIVSEL, the
jog lines, the stacker piece record and the retained store in delivery order. -/
@[ext]
structure TrackUnit where
  path : List PathEntry
  loop : List Launch
  divsel : Route
  jogA : Bool
  jogB : Bool
  piece : Option StackerPiece
  store : List LogicalSheet
  deriving DecidableEq, Repr, Inhabited

/-- The imaging gate (R98, R102): the current side and the values on the side port. -/
@[ext]
structure ImageUnit where
  current : Option CurrentSide
  port : SidePort
  deriving DecidableEq, Repr, Inhabited

/-- The recovery unit (R111): the fault snapshot and its lock. -/
@[ext]
structure RecoverUnit where
  snapshot : Option Snapshot
  lock : Bool
  deriving DecidableEq, Repr, Inhabited

/-- The report unit (R156 to R164): outbound queue (head first), write index, head, visible head, tail view, the
outstanding write, the record writes completed since the head last changed (R160), the halt (R164), and whether the
head-word write of 0 of a setup acceptance still waits for room in the own-access FIFO (R151, R141). -/
@[ext]
structure ReportUnit where
  queue : List Queued
  write : Nat
  head : Nat
  visible : Nat
  tail : Nat
  outstanding : Option ReportWrite
  sinceHead : Nat
  halted : Bool
  headWaits : Bool
  deriving DecidableEq, Repr, Inhabited

/-- The two watch units (R165). -/
@[ext]
structure WatchUnits where
  w0 : WatchUnit
  w1 : WatchUnit
  deriving DecidableEq, Repr, Inhabited

/-- The event history (R171): entries oldest first, frozen flag, and the dump in progress (R172). The dump reservation
of R157 stands exactly while a dump is in progress. -/
@[ext]
structure HistoryUnit where
  entries : List HistEntry
  frozen : Bool
  dump : Option Dump
  deriving DecidableEq, Repr, Inhabited

/-- Setup control (R145 to R152): the sampled straps, the setup in force, the revision in force, the fetch state, the
reads of the fetch handed over and completed, whether one failed, and the copy (the bytes of each completed read). -/
@[ext]
structure SetupUnit where
  base : BitVec 4
  inForce : Option Setup
  revision : Byte
  fetch : FetchState
  issued : Nat
  done : Nat
  failed : Bool
  copy : List (List Byte)
  deriving DecidableEq, Repr, Inhabited

/-- The levels on the input lines (00_scope.md): TREADY, COVER, TRAYRDY1 to TRAYRDY4, STKFULLA, STKFULLB, S0 to S15. -/
@[ext]
structure PinLevels where
  tready : Bool
  cover : Bool
  trayrdy : Vector Bool 4
  stkfullA : Bool
  stkfullB : Bool
  sensors : Vector Bool 16
  deriving DecidableEq, Repr, Inhabited

/-- The state of the TK-40: the queue of waiting commands, one field for each block, the input levels, and what the
pulse lines and the bus port gave in the last event. MRUN and ATTN are levels that R38 and R163 make functions of this
state: `State.mrun` and `State.attn` in Machine/Flags.lean. -/
@[ext]
structure State where
  pending : List Instr
  pass : PassState
  fetch : FetchUnit
  run : RunUnit
  time : TimeUnit
  expect : ExpectUnit
  plan : PlanUnit
  track : TrackUnit
  image : ImageUnit
  recover : RecoverUnit
  report : ReportUnit
  watch : WatchUnits
  history : HistoryUnit
  setup : SetupUnit
  tally : Tally
  pins : PinLevels
  out : List Output
  deriving DecidableEq, Repr, Inhabited

/-- A watch unit after a power-on reset (R165, R174). -/
def WatchUnit.cleared : WatchUnit := { program := none, state := .disarmed, remaining := 0, hits := 0, first := none }

/-- The retained tally after a power-on reset (R154). -/
def Tally.zero : Tally := { nextSerial := 0, delivered := 0, lastSerial := 0, lastPiece := 0, valid := false }

/-- A sensor line with no debounce state kept (R30, UNSET; DESIGN CHOICE, log entry 29). -/
def Line.none : Line := { stable := false, change := Option.none }

/-- The machine after a power-on reset, every block as its chapter says (R20, R21, R33, R38, R50, R55, R74, R78, R79,
R87, R89, R98, R102, R111, R144, R153, R154, R157, R174). The input levels and the sampled straps are what the outside
presents: all low here (DESIGN CHOICE, log entry 3). The bookkeeping fields and
ring indices that the spec gives no value are 0 or false (DESIGN CHOICE, log entry 28). -/
def State.reset : State where
  pending := []
  pass := { fwd := [], own := [], wait := 0, granted := .none, locks := [], memError := false }
  fetch :=
    { posted := [], next := 0, inHand := .none, deferred := false, openPiece := .none, schedule := [], counter := 0
      finish := .none }
  run := { state := .unset, hold := false, standby := false, timer := .none }
  time :=
    { pos := 0, acc := 0, estimate := false, silence := 0, estTicks := 0, pulsed := false, restored := false
      owed := 0 }
  expect := { items := [], lines := Vector.replicate 16 Line.none }
  plan :=
    { staged := .none, gapMet := true, lastRelease := .none, lastStacker := .none, counter := 0, commitment := 0 }
  track :=
    { path := [], loop := [], divsel := .purge, jogA := false, jogB := false, piece := .none, store := [] }
  image := { current := .none, port := { base := 0, len := 0, stride := 0 } }
  recover := { snapshot := .none, lock := false }
  report :=
    { queue := [], write := 0, head := 0, visible := 0, tail := 0, outstanding := .none, sinceHead := 0
      halted := false, headWaits := false }
  watch := { w0 := WatchUnit.cleared, w1 := WatchUnit.cleared }
  history := { entries := [], frozen := false, dump := .none }
  setup :=
    { base := 0, inForce := .none, revision := 0, fetch := .idle, issued := 0, done := 0, failed := false, copy := [] }
  tally := Tally.zero
  pins :=
    { tready := false, cover := false, trayrdy := Vector.replicate 4 false, stkfullA := false, stkfullB := false
      sensors := Vector.replicate 16 false }
  out := []

end Sys2Proof.Machine
end

