-- ==== Sys2Proof/Machine/Bytes.lean ====
section
/-! DEFINITION. Bytes and byte ranges: little-endian fields of a byte list (00_scope.md, Conventions) and the overlap
of two ranges of page memory. -/

namespace Sys2Proof.Machine

/-- Byte `i` of a list of bytes as a number (0 beyond its end). -/
def byteAt (bs : List Byte) (i : Nat) : Nat := (bs.getD i 0).toNat

/-- The `n`-byte little-endian field at offset `off`. -/
def leAt (bs : List Byte) (off : Nat) : Nat → Nat
  | 0 => 0
  | n + 1 => byteAt bs off + 256 * leAt bs (off + 1) n

/-- The `n`-byte little-endian form of a number. -/
def toLE : Nat → Nat → List Byte
  | 0, _ => []
  | n + 1, v => BitVec.ofNat 8 v :: toLE n (v / 256)

/-- A list of bytes filled with zeros to `n` bytes. -/
def padTo (n : Nat) (bs : List Byte) : List Byte := bs ++ List.replicate (n - bs.length) 0

/-- The bytes from `lo` up to, but not including, `hi` are all zero. -/
def zeroBetween (bs : List Byte) (lo hi : Nat) : Bool :=
  (List.range (hi - lo)).all fun k => byteAt bs (lo + k) == 0

/-- The ranges `[a, a + la)` and `[b, b + lb)` share at least one byte. -/
def overlaps (a la b lb : Nat) : Bool :=
  decide (0 < la) && decide (0 < lb) && decide (a < b + lb) && decide (b < a + la)

/-- The access covers the byte at address `x`. -/
def Access.covers (a : Access) (x : Nat) : Bool := decide (a.addr ≤ x) && decide (x < a.addr + a.len)

/-- The byte that a write carries for the address `x`. -/
def Access.byteFor (a : Access) (x : Nat) : Nat := byteAt a.data (x - a.addr)

/-- The bytes of the access leave one 64-byte aligned block (R131). -/
def Access.leavesBlock (a : Access) : Bool := decide (64 < a.addr % 64 + a.len)

end Sys2Proof.Machine
end

