-- ==== Sys2Proof/Machine/Position.lean ====
section
/-! DEFINITION. Position arithmetic (02_position_arithmetic_and_path_expectations.md): the half-range comparisons of
R22, windows and due positions (R23, R25, R33), and the order of the expectation list. -/

namespace Sys2Proof.Machine

/-- `a` is at or past `b`: `(a - b) mod 2^24` is less than `2^23` (R22). -/
def atOrPast (a b : BitVec 24) : Bool := decide ((a - b).toNat < 8388608)

/-- `a` is before `b` (R22). -/
def before (a b : BitVec 24) : Bool := !atOrPast a b

/-- `a` is later than `b` (R22). For acceptance sequences, `b` is earlier than `a`. -/
def later (a b : BitVec 24) : Bool := atOrPast a b && a != b

/-- `a` is earlier than `b` among launch numbers: `(b - a) mod 2^16` is from 1 to 32,767 (04_feed_planning, R55). -/
def earlierLaunch (a b : Launch) : Bool := decide (1 ≤ (b - a).toNat) && decide ((b - a).toNat ≤ 32767)

/-- A position plus a distance, modulo `2^24` (R22). -/
def plus (p : Pos) (n : Nat) : Pos := p + BitVec.ofNat 24 n

/-- The window's open position (R23). -/
def Item.opens (i : Item) : Pos := i.pos - BitVec.ofNat 24 i.early

/-- The window's close position (R23). -/
def Item.closes (i : Item) : Pos := plus i.pos i.late

/-- An edge stamped at `q` is in the window (R23). -/
def Item.inWindow (i : Item) (q : Pos) : Bool := decide ((q - i.opens).toNat ≤ i.early + i.late)

/-- The item is an edge expectation. -/
def Item.isEdge (i : Item) : Bool :=
  match i.kind with
  | .edge _ _ _ => true
  | _ => false

/-- The due position: the expiry position of an edge expectation, an event's own position otherwise (R23, R33). -/
def Item.due (i : Item) : Pos := if i.isEdge then plus i.closes 1 else i.pos

/-- The launch number of the entry that an item belongs to; none for the gap wait and the idle wait. -/
def ItemKind.launch? : ItemKind → Option Launch
  | .edge l _ _ => some l
  | .div l => some l
  | .park l => some l
  | .top l => some l
  | .check l => some l
  | .gap => none
  | .idle => none

/-- The item is an expectation of this edge kind at this station. -/
def Item.awaits (st : Station) (e : Edge) (i : Item) : Bool :=
  match i.kind with
  | .edge _ st' e' => st' == st && e' == e
  | _ => false

/-- The late tolerance in estimate mode (R26). -/
def widened (late : Nat) : Nat := min (2 * late) 65535

/-- An edge expectation with the late tolerance of estimate mode; a position event as it is (R26). -/
def Item.widen (i : Item) : Item := if i.isEdge then { i with late := widened i.late } else i

/-- Insertion at the item's place by due position (R33), behind the items of equal due position (DESIGN CHOICE, log entry
30). -/
def insertItem (it : Item) : List Item → List Item
  | [] => [it]
  | x :: xs => if later x.due it.due then it :: x :: xs else x :: insertItem it xs

/-- Of two claimants, the one whose window opens earlier, at equal opening the earlier launch number (R31). -/
def claimsBefore (a b : Item) : Bool :=
  if a.opens = b.opens then
    match a.kind.launch?, b.kind.launch? with
    | some la, some lb => earlierLaunch la lb
    | _, _ => false
  else before a.opens b.opens

/-- The claimant that an edge goes to: the first to claim among the list (R31, R32). -/
def firstClaimant : List Item → Option Item
  | [] => none
  | x :: xs =>
    match firstClaimant xs with
    | none => some x
    | some y => if claimsBefore y x then some y else some x

end Sys2Proof.Machine
end

