-- ==== Sys2Proof/Machine/Records.lean ====
section
/-! DEFINITION. The byte layouts that the controller writes (12_record_and_order_formats.md): the codes, the 32-byte
report records (R176), the 16-byte history entries, the 8-byte post word and head word, and the mark value (R107,
R108). -/

namespace Sys2Proof.Machine

/-! ### Codes -/

/-- The code of a flag: 1 for set. -/
def flag (b : Bool) : Nat := if b then 1 else 0

/-- The station codes 1 to 12. -/
def stationCode : Station → Nat
  | .feed1 => 1
  | .feed2 => 2
  | .feed3 => 3
  | .feed4 => 4
  | .reg => 5
  | .xfer => 6
  | .fuse => 7
  | .loopin => 8
  | .loopout => 9
  | .stka => 10
  | .stkb => 11
  | .purge => 12

/-- A station field: 0 means none. -/
def stationField : Option Station → Nat
  | none => 0
  | some st => stationCode st

/-- The run state codes. -/
def runCode : RunState → Nat
  | .unset => 0
  | .idle => 1
  | .starting => 2
  | .running => 3
  | .draining => 4
  | .stopped => 5

/-- The stop cause codes. -/
def causeCode : StopCause → Nat
  | .early => 1
  | .late => 2
  | .stray => 3
  | .short => 4
  | .long => 5
  | .transportStart => 6
  | .transportLost => 7
  | .coverOpen => 8
  | .encoderLost => 9
  | .encoderDrained => 10
  | .memory => 11

/-- The initiator class codes. -/
def classCode : InitClass → Nat
  | .processor => 0
  | .channel => 1
  | .imager => 2
  | .other => 3

/-- The stacker codes STKA 1, STKB 2. -/
def stackerCode : Stacker → Nat
  | .a => 1
  | .b => 2

/-- The leg codes. -/
def legCode : Leg → Nat
  | .first => 1
  | .second => 2

/-- The side codes FRONT 0, BACK 1. -/
def sideCode : Side → Nat
  | .front => 0
  | .back => 1

/-- The reason codes of SHEET_SPOILED. -/
def spoilCode : SpoilReason → Nat
  | .underrun => 1
  | .cascade => 2
  | .cancelled => 3
  | .stop => 4
  | .atExit => 5

/-- The disposition codes of SHEET_DONE. -/
def dispositionCode : Disposition → Nat
  | .released => 1
  | .retained => 2
  | .committed => 3
  | .pieceComplete => 4

/-- The reason codes of a rejected order. -/
def rejectCode : RejectReason → Nat
  | .kindUnknown => 1
  | .kindDisabled => 2
  | .field => 3
  | .length => 4
  | .tray => 5
  | .plex => 6
  | .raster => 7
  | .output => 8
  | .pieceOrder => 9
  | .outputMix => 10

/-- The result codes of a control order. -/
def resultCode : ControlResult → Nat
  | .ok => 0
  | .notStopped => 1
  | .pathNotClear => 2
  | .noPiece => 3
  | .unitArmed => 4
  | .tallyDisabled => 5
  | .busy => 6

/-- The policy row codes of a POLICY record. -/
def rowCode : PolicyRow → Nat
  | .lockedRaster => 1
  | .reportArea => 2
  | .orderInflight => 3
  | .tailValue => 4

/-- The outcome codes of a POLICY record. -/
def policyFieldCode : PolicyField → Nat
  | .drop => 1
  | .error => 2
  | .range => 3
  | .order => 4
  | .partialWrite => 5

/-- The outcome codes of a policy cell and of a WATCH_HIT record. -/
def outcomeCode : PolicyOutcome → Nat
  | .pass => 0
  | .drop => 1
  | .error => 2

/-- The outcome codes of a SETUP record. -/
def setupCode : SetupOutcome → Nat
  | .accepted => 0
  | .busy => 1
  | .memory => 2
  | .format => 3
  | .region => 4
  | .geometry => 5
  | .timing => 6
  | .loop => 7

/-- The action codes of a watch program. -/
def actionCode : WatchAction → Nat
  | .report => 1
  | .hold => 2
  | .freeze => 3
  | .pulse => 4

/-- The sheet event kind codes. -/
def eventCode : SheetEventKind → Nat
  | .le => 1
  | .te => 2
  | .release => 3
  | .top => 4
  | .deliver => 5
  | .spoil => 6

/-- The watch unit codes. -/
def unitCode : UnitId → Nat
  | .w0 => 0
  | .w1 => 1

/-! ### Records -/

/-- One byte from a number. -/
def byte (n : Nat) : Byte := BitVec.ofNat 8 n

/-- The presence byte: serial, launch number, acceptance sequence or sheet fields, and the kind flags 4 and 5. -/
def presence (serial launch sequence flag4 flag5 : Bool) : Byte :=
  byte (flag serial + 2 * flag launch + 4 * flag sequence + 16 * flag flag4 + 32 * flag flag5)

/-- A serial field: an absent serial is written as zero. -/
def serialField (x : Option Serial) : List Byte := toLE 4 ((x.getD 0).toNat)

/-- The bytes of SHEET_DONE and SHEET_SPOILED from offset 4 to 27. -/
def sheetFields (seq : Seq) (piece : PieceId) (index : Nat) (launch : Launch) (tag : BitVec 32)
    (serial : Option Serial) (pos : Pos) : List Byte :=
  toLE 4 seq.toNat ++ toLE 4 piece.toNat ++ toLE 2 index ++ toLE 2 launch.toNat ++ toLE 4 tag.toNat ++
    serialField serial ++ toLE 4 pos.toNat

/-- The bytes of a WATCH_HIT from offset 12 on. -/
def hitFields : HitItem → List Byte
  | .bus b =>
    toLE 4 b.addr ++ [byte b.len, byte (if b.write then 2 else 1), byte b.tag.toNat, byte (classCode b.cls),
      byte (outcomeCode b.outcome)]
  | .sheet e =>
    [byte (eventCode e.kind), byte (stationField e.station)] ++ toLE 2 e.launch.toNat ++ toLE 4 e.piece.toNat ++
      toLE 4 ((e.seq.getD 0).toNat) ++ serialField e.serial

/-- The presence byte of a WATCH_HIT. -/
def hitPresence (item : HitItem) (carried : Bool) : Byte :=
  match item with
  | .bus _ => presence false false false carried false
  | .sheet e => presence e.serial.isSome true e.seq.isSome carried false

/-- The source code of a WATCH_HIT: BUS 1, SHEET 2. -/
def hitSource : HitItem → Nat
  | .bus _ => 1
  | .sheet _ => 2

/-- The bytes of a record that its row names (12_record_and_order_formats.md). -/
def recordBytes : Record → List Byte
  | .sheetDone r =>
    [byte 1, presence r.serial.isSome true true r.last false, byte (stackerCode r.output),
      byte (dispositionCode r.disposition)] ++
      sheetFields r.seq r.piece r.index r.launch r.tag r.serial r.pos ++ toLE 2 r.released
  | .sheetSpoiled r =>
    [byte 2, presence r.serial.isSome true true r.last r.blank, byte (spoilCode r.reason),
      byte (stationField r.place)] ++
      sheetFields r.seq r.piece r.index r.launch r.tag r.serial r.pos ++ [byte (legCode r.leg)]
  | .pieceVoid r =>
    [byte 3, presence true false false false false, 0, 0] ++ toLE 4 r.piece.toNat ++ toLE 2 r.count ++ [0, 0] ++
      toLE 4 r.first.toNat ++ toLE 4 r.last.toNat
  | .pieceCancelled r =>
    [byte 4, presence (decide (0 < r.voided)) false false r.committed false, 0, 0] ++ toLE 4 r.piece.toNat ++
      toLE 2 r.pendingCount ++ toLE 2 r.inPath ++ toLE 2 r.voided ++ [0, 0] ++ serialField r.first ++
      serialField r.last
  | .orderRejected r =>
    [byte 5, presence false false r.sheet.isSome false false, byte (rejectCode r.reason), r.kind] ++
      toLE 2 r.slot ++ [0, 0] ++
      (match r.sheet with
        | none => []
        | some (piece, index, tag) =>
          toLE 4 piece.toNat ++ toLE 2 index ++ [0, 0] ++ toLE 4 tag.toNat)
  | .controlDone r => [byte 6, 0, byte (resultCode r.result), r.kind] ++ toLE 2 r.slot
  | .state r =>
    [byte 7, 0, byte (runCode r.old), byte (runCode r.new), byte (match r.cause with | none => 0 | some c => causeCode c),
      byte (flag r.hold + 2 * flag r.standby), 0, 0] ++ toLE 4 r.pos.toNat
  | .fault r =>
    [byte 8, presence r.snapshot.serial.isSome r.snapshot.launch.isSome false r.estimate false,
      byte (causeCode r.snapshot.cause), byte (stationField r.snapshot.station), byte (runCode r.snapshot.former),
      byte r.spoiled] ++
      toLE 2 ((r.snapshot.launch.getD 0).toNat) ++ toLE 4 r.snapshot.pos.toNat ++ serialField r.snapshot.serial
  | .policy r =>
    [byte 9, presence false false false r.mixed false, byte (rowCode r.row), byte (policyFieldCode r.outcome),
      byte r.count, byte r.tag.toNat, byte (classCode r.cls), byte r.len] ++
      toLE 4 r.addr ++ toLE 4 (r.value.getD 0) ++ toLE 4 (r.view.getD 0)
  | .watchHit r =>
    [byte 10, hitPresence r.particulars.item r.carried, byte (unitCode r.particulars.unit),
      byte (hitSource r.particulars.item), byte (actionCode r.particulars.action),
      byte (runCode r.particulars.runState), byte (flag r.particulars.hold), byte r.hits] ++
      toLE 4 r.particulars.pos.toNat ++ hitFields r.particulars.item
  | .timebase r =>
    [byte 11, 0, byte (if r.restored then 2 else 1), 0] ++ toLE 2 r.amount ++ [0, 0] ++ toLE 4 r.pos.toNat
  | .setup r =>
    [byte 12, presence false false false r.tally.valid false, byte (setupCode r.outcome), r.fetched, r.inForce,
      byte r.count, 0, 0] ++
      toLE 4 r.tally.nextSerial.toNat ++ toLE 4 r.tally.delivered.toNat ++ toLE 4 r.tally.lastSerial.toNat ++
      toLE 4 r.tally.lastPiece.toNat
  | .dumpDone r =>
    [byte 13, presence false false false r.frozen false, byte (if r.ok then 0 else 2), byte r.written, byte r.held,
      0, 0, 0] ++
      toLE 4 r.dest ++ toLE 4 r.pos.toNat

/-- The 32 bytes of a record: every byte its row does not name is zero (R176). -/
def encodeRecord (r : Record) : List Byte := padTo 32 (recordBytes r)

/-! ### History entries -/

/-- The code of a history entry's kind. -/
def histCode : HistKind → Nat
  | .pick _ => 1
  | .refeed _ => 2
  | .release _ => 3
  | .le => 4
  | .te => 5
  | .top _ => 6
  | .underrun _ _ => 7
  | .deliver _ => 8
  | .spoil _ => 9
  | .stop _ => 10
  | .cleared => 11

/-- The detail byte of a history entry. -/
def histDetail : HistKind → Nat
  | .pick tray => tray.val + 1
  | .refeed blank => flag blank
  | .release leg => legCode leg
  | .le => 0
  | .te => 0
  | .top side => sideCode side
  | .underrun side n => 128 * sideCode side + n % 16
  | .deliver d => dispositionCode d
  | .spoil r => spoilCode r
  | .stop c => causeCode c
  | .cleared => 0

/-- The 16 bytes of a history entry in a dump. -/
def encodeHist (e : HistEntry) : List Byte :=
  [byte (histCode e.kind), byte (stationField e.station + 16 * runCode e.runState),
    byte (flag e.serial.isSome + 2 * flag e.seq.isSome + 4 * flag e.launch.isSome), byte (histDetail e.kind)] ++
    toLE 3 e.pos.toNat ++ toLE 2 ((e.launch.getD 0).toNat) ++ toLE 3 ((e.seq.getD 0).toNat) ++ serialField e.serial

/-- The 64 bytes of write `i` of a dump: four entries of the snapshot, the last write filled with zeros (R172). -/
def dumpBytes (snapshot : List HistEntry) (i : Nat) : List Byte :=
  padTo 64 (((snapshot.drop (4 * i)).take 4).flatMap encodeHist)

/-! ### Post word and head word -/

/-- The post word of an accepted SHEET order: TAKEN with its acceptance sequence (R5). -/
def postSheet (seq : Seq) : List Byte := [byte 2] ++ toLE 3 seq.toNat ++ [0, 0, 0, 0]

/-- The post word of a control order: TAKEN with its result code (R5). -/
def postControl (r : ControlResult) : List Byte := [byte 2, 0, 0, 0, byte (resultCode r), 0, 0, 0]

/-- The post word of a rejected order: REJECTED with the reason (R5). -/
def postRejected (r : RejectReason) : List Byte := [byte 3, 0, 0, 0, byte (rejectCode r), 0, 0, 0]

/-- The 8 bytes of a head-word write. -/
def headBytes (value : Nat) : List Byte := toLE 4 value ++ [0, 0, 0, 0]

/-! ### The mark -/

/-- The mark value B0 to B7 (R107). -/
def markValue (serial : Serial) (index : Nat) (last : Bool) (side : Side) : List Byte :=
  let bs : List Byte :=
    [byte 0x5A] ++ (toLE 4 serial.toNat).reverse ++
      [byte (128 * flag last + 64 * sideCode side + index / 256 % 16), byte (index % 256)]
  bs ++ [bs.foldl (· + ·) 0]

/-- One raster byte from a group of four bits: a 1 becomes the pixels 10 and a 0 the pixels 01, the most significant
bit leftmost (R108). -/
def expandGroup (g : Nat) : Byte :=
  let pair (b : Nat) : Nat := if b % 2 = 1 then 2 else 1
  byte (64 * pair (g / 8) + 16 * pair (g / 4) + 4 * pair (g / 2) + pair g)

/-- The 16 expanded mark bytes of each mark line (R108). -/
def expandMark (bs : List Byte) : List Byte :=
  bs.flatMap fun b => [expandGroup (b.toNat / 16), expandGroup (b.toNat % 16)]

end Sys2Proof.Machine
end

