-- ==== Sys2Proof/Machine/SetupBlock.lean ====
section
/-! DEFINITION. The setup block: reading the fetched copy (12_record_and_order_formats.md, Setup block) and validating
it (R149, R150, R177). -/

namespace Sys2Proof.Machine

/-- The bytes that the reads of a fetch returned, 64 to a block, the first read first (R147). -/
abbrev SetupCopy := List (List Byte)

/-- Byte `off` of the copy. -/
def copyByte (c : SetupCopy) (off : Nat) : Nat := byteAt (c.getD (off / 64) []) (off % 64)

/-- The `n`-byte little-endian field at offset `off` of the copy. -/
def copyField (c : SetupCopy) (off : Nat) : Nat → Nat
  | 0 => 0
  | n + 1 => copyByte c off + 256 * copyField c (off + 1) n

/-- The bytes of the copy from `lo` up to, but not including, `hi` are zero. -/
def copyZero (c : SetupCopy) (lo hi : Nat) : Bool := (List.range (hi - lo)).all fun k => copyByte c (lo + k) == 0

/-- Bit `k` of a number. -/
def bitOf (n k : Nat) : Bool := n / 2 ^ k % 2 == 1

/-- The number is one of `lo` to `hi`. -/
def inRange (lo hi n : Nat) : Bool := decide (lo ≤ n) && decide (n ≤ hi)

/-- The initiator class of a class code. -/
def classOfCode (n : Nat) : InitClass :=
  if n = 0 then .processor else if n = 1 then .channel else if n = 2 then .imager else .other

/-- The policy outcome of a cell code. -/
def outcomeOfCode (n : Nat) : PolicyOutcome := if n = 0 then .pass else if n = 1 then .drop else .error

/-- Row `row` of the policy table. -/
def parseCells (c : SetupCopy) (row : Nat) : PolicyCells where
  processor := outcomeOfCode (copyByte c (0x28 + 4 * row))
  channel := outcomeOfCode (copyByte c (0x28 + 4 * row + 1))
  imager := outcomeOfCode (copyByte c (0x28 + 4 * row + 2))
  other := outcomeOfCode (copyByte c (0x28 + 4 * row + 3))

/-- The index of a station in the station table: its code minus 1. -/
def stationIndex : Station → Fin 12
  | .feed1 => 0
  | .feed2 => 1
  | .feed3 => 2
  | .feed4 => 3
  | .reg => 4
  | .xfer => 5
  | .fuse => 6
  | .loopin => 7
  | .loopout => 8
  | .stka => 9
  | .stkb => 10
  | .purge => 11

/-- All stations in code order. -/
def allStations : List Station :=
  [.feed1, .feed2, .feed3, .feed4, .reg, .xfer, .fuse, .loopin, .loopout, .stka, .stkb, .purge]

/-- The feed station of a tray. -/
def feedStation (t : Fin 4) : Station :=
  if t = 0 then .feed1 else if t = 1 then .feed2 else if t = 2 then .feed3 else .feed4

/-- Entry `i` of the station table. -/
def parseStation (c : SetupCopy) (i : Nat) : StationEntry where
  present := copyByte c (0x100 + 8 * i) == 1
  line := copyByte c (0x100 + 8 * i + 1)
  early := copyField c (0x100 + 8 * i + 4) 2
  late := copyField c (0x100 + 8 * i + 6) 2

/-- The configuration that a fetched copy gives. -/
def parseSetup (c : SetupCopy) : Setup where
  orderBase := copyField c 0x000 4
  orderSlots := copyField c 0x004 2
  reportBase := copyField c 0x008 4
  reportSlots := copyField c 0x00C 2
  controlBase := copyField c 0x010 4
  recovery := if copyByte c 0x014 = 2 then .piece else .sheet
  lossAction := if copyByte c 0x015 = 2 then .drain else .stop
  pathDepth := copyByte c 0x016
  markLines := copyByte c 0x017
  gateDepth := copyField c 0x018 2
  kindEnable := BitVec.ofNat 16 (copyField c 0x01A 2)
  markEnable := bitOf (copyByte c 0x01C) 0
  jogEnable := bitOf (copyByte c 0x01C) 1
  tallyEnable := bitOf (copyByte c 0x01C) 2
  classMap := Vector.ofFn fun i => classOfCode (copyByte c (0x020 + i.val))
  lockedRaster := parseCells c 0
  reportArea := parseCells c 1
  orderInflight := parseCells c 2
  minGap := copyField c 0x040 2
  margin := copyField c 0x042 2
  startLimit := copyByte c 0x044
  lossLimit := copyByte c 0x045
  estRate := copyField c 0x046 2
  linger := copyField c 0x048 2
  trailTol := copyField c 0x04A 2
  debounce := copyByte c 0x04C
  loopLength := copyField c 0x050 4
  loopGap := copyField c 0x054 2
  dLr := copyField c 0x058 4
  dSettle := copyField c 0x05C 4
  dX := copyField c 0x060 4
  dTop := copyField c 0x064 4
  dF := copyField c 0x068 4
  dDv := copyField c 0x06C 4
  dLi := copyField c 0x070 4
  dA := copyField c 0x074 4
  dB := copyField c 0x078 4
  dP := copyField c 0x07C 4
  trays := Vector.ofFn fun i => { f := copyField c (0x080 + 8 * i.val) 4, p := copyField c (0x084 + 8 * i.val) 4 }
  stations := Vector.ofFn fun i => parseStation c i.val

/-- A station's entry in the setup. -/
def Setup.station (c : Setup) (st : Station) : StationEntry := c.stations[stationIndex st]

/-- A tray is fitted when its feed station is present. -/
def Setup.fitted (c : Setup) (t : Fin 4) : Bool := (c.station (feedStation t)).present

/-! ### FORMAT (R149, R177) -/

/-- The reserved bytes of the block outside the station and tray tables are zero (R177). -/
def reservedOk (c : SetupCopy) : Bool :=
  [(0x006, 0x008), (0x00E, 0x010), (0x01D, 0x020), (0x034, 0x040), (0x04D, 0x050), (0x056, 0x058), (0x0A0, 0x100),
    (0x160, 0xFF8), (0xFFA, 0x1000)].all fun r => copyZero c r.1 r.2

/-- A station entry has a present flag of 0 or 1, its reserved bytes are zero, and all of it is zero when the station
is absent (R177). -/
def stationFormatOk (c : SetupCopy) (i : Nat) : Bool :=
  let at0 := 0x100 + 8 * i
  if copyByte c at0 = 1 then copyZero c (at0 + 2) (at0 + 4) else copyZero c at0 (at0 + 8)

/-- The entry of a tray not fitted is zero (R177). -/
def trayFormatOk (c : SetupCopy) (i : Nat) : Bool :=
  if copyByte c (0x100 + 8 * i) = 1 then true else copyZero c (0x080 + 8 * i) (0x088 + 8 * i)

/-- The bits 0 and 10 to 15 of the kind enable mask are zero (R177). -/
def maskOk (m : Nat) : Bool := m % 2 == 0 && decide (m < 1024)

/-- The FORMAT checks (R149, R177). -/
def formatOk (c : SetupCopy) : Bool :=
  let s := parseSetup c
  copyByte c 0xFF8 == 1 && inRange 1 255 (copyByte c 0xFF9) &&
  reservedOk c && (List.range 12).all (stationFormatOk c) && (List.range 4).all (trayFormatOk c) &&
  maskOk (copyField c 0x01A 2) && decide (copyByte c 0x01C < 8) &&
  inRange 1 2 (copyByte c 0x014) && inRange 1 2 (copyByte c 0x015) &&
  (List.range 8).all (fun i => decide (copyByte c (0x020 + i) ≤ 3)) &&
  (List.range 12).all (fun i => decide (copyByte c (0x028 + i) ≤ 2)) &&
  [16, 32, 64, 128, 256].contains s.orderSlots && [64, 128, 256, 512, 1024].contains s.reportSlots &&
  inRange 1 12 s.pathDepth && inRange 1 4095 s.gateDepth && inRange 1 32 s.markLines

/-! ### REGION (R149) -/

/-- The four structures of the controller in page memory, as base and length: setup block, order ring, report ring and
control block. -/
def ownRegions (base : BitVec 4) (s : Setup) : List (Nat × Nat) :=
  [(base.toNat * 268435456, 4096), (s.orderBase, 64 * s.orderSlots), (s.reportBase, 32 * s.reportSlots),
    (s.controlBase, 16)]

/-- No two regions of a list overlap. -/
def disjointRegions : List (Nat × Nat) → Bool
  | [] => true
  | r :: rs => rs.all (fun q => !overlaps r.1 r.2 q.1 q.2) && disjointRegions rs

/-- The REGION checks (R149). -/
def regionOk (base : BitVec 4) (s : Setup) : Bool :=
  [s.orderBase, s.reportBase, s.controlBase].all (fun b => b % 64 == 0) &&
  (ownRegions base s).all (fun r => decide (r.1 + r.2 ≤ 4294967296)) && disjointRegions (ownRegions base s)

/-! ### GEOMETRY (R149) -/

/-- A distance is 1 to 1,048,575. -/
def distanceOk (d : Nat) : Bool := inRange 1 1048575 d

/-- No two present stations share a sensor line. -/
def ownLines (s : Setup) : List Station → Bool
  | [] => true
  | st :: rest =>
    rest.all (fun q => !((s.station st).present && (s.station q).present && (s.station st).line == (s.station q).line)) &&
      ownLines s rest

/-- The distances of a fitted tray are in range and f_t is less than p_t. -/
def trayOk (s : Setup) (t : Fin 4) : Bool :=
  if s.fitted t then distanceOk s.trays[t].f && distanceOk s.trays[t].p && decide (s.trays[t].f < s.trays[t].p)
  else true

/-- The GEOMETRY checks (R149). -/
def geometryOk (s : Setup) : Bool :=
  [Station.reg, .xfer, .fuse, .stka, .stkb, .purge].all (fun st => (s.station st).present) &&
  (List.finRange 4).any s.fitted &&
  allStations.all (fun st => !(s.station st).present || decide ((s.station st).line < 16)) &&
  ownLines s allStations &&
  [s.dX, s.dTop, s.dF, s.dDv, s.dA, s.dB, s.dP].all distanceOk && (List.finRange 4).all (trayOk s) &&
  decide (0 < s.dX) && decide (s.dX ≤ s.dTop) && decide (s.dTop < s.dF) && decide (s.dF < s.dDv) &&
  [s.dA, s.dB, s.dP].all (fun d => decide (s.dDv < d)) && decide (s.debounce ≤ 15)

/-! ### TIMING and LOOP (R150) -/

/-- The TIMING checks (R150). -/
def timingOk (s : Setup) : Bool :=
  inRange 50 4095 s.minGap && decide (s.margin < s.minGap) && inRange 1 255 s.startLimit &&
  inRange 1 255 s.lossLimit && inRange 1 4095 s.estRate

/-- The LOOP checks (R150). -/
def loopOk (s : Setup) : Bool :=
  if s.loopLength = 0 then !(s.station .loopin).present && !(s.station .loopout).present
  else
    (s.station .loopin).present && (s.station .loopout).present && decide (s.loopGap ≤ 4095) &&
    inRange (5000 + s.loopGap) 1048575 s.loopLength && [s.dLi, s.dLr, s.dSettle].all distanceOk &&
    decide (s.dDv < s.dLi)

/-- The reason of the first group of checks that fails (R149, R150), or none. -/
def validate (base : BitVec 4) (c : SetupCopy) : Option SetupOutcome :=
  let s := parseSetup c
  if !formatOk c then some .format
  else if !regionOk base s then some .region
  else if !geometryOk s then some .geometry
  else if !timingOk s then some .timing
  else if !loopOk s then some .loop
  else none

end Sys2Proof.Machine
end

