-- ==== Sys2Proof/Machine/Operands.lean ====
section
/-! DEFINITION. The operands of an order: the fields of a 64-byte slot (12_record_and_order_formats.md) and the tests
of R7 that look at the order alone or at the order and the setup: reserved fields (R175), field values (R9) and
piece order (R10). -/

namespace Sys2Proof.Machine

/-- The kind byte of an order. -/
def slotKind (slot : List Byte) : Nat := byteAt slot 0

/-- The post state read is POSTED (R4). -/
def slotPosted (slot : List Byte) : Bool := byteAt slot 56 == 1

/-- The code is one of the kinds 1 to 9 (R7, step 1). -/
def kindKnown (k : Nat) : Bool := inRange 1 9 k

/-! ### SHEET -/

/-- The flag bits of a SHEET order. -/
def sheetFlag (slot : List Byte) (bit : Nat) : Bool := bitOf (byteAt slot 1) bit

/-- The last-in-piece flag. -/
def sheetLast (slot : List Byte) : Bool := sheetFlag slot 0

/-- The back-side-present flag. -/
def sheetHasBack (slot : List Byte) : Bool := sheetFlag slot 1

/-- The order's index. -/
def sheetIndex (slot : List Byte) : Nat := leAt slot 6 2

/-- The order's piece id; also that of a CANCEL order is at offset 4 (`cancelPieceId`). -/
def sheetPiece (slot : List Byte) : PieceId := BitVec.ofNat 32 (leAt slot 8 4)

/-- The order's tag. -/
def sheetTag (slot : List Byte) : BitVec 32 := BitVec.ofNat 32 (leAt slot 12 4)

/-- The order's length in counts. -/
def sheetLength (slot : List Byte) : Nat := leAt slot 16 2

/-- A tray code 1 to 4. -/
def trayOfCode (n : Nat) : Option (Fin 4) :=
  if n = 1 then some 0 else if n = 2 then some 1 else if n = 3 then some 2 else if n = 4 then some 3 else none

/-- An output code 1 or 2. -/
def stackerOfCode (n : Nat) : Option Stacker := if n = 1 then some .a else if n = 2 then some .b else none

/-- A plex code 1 or 2. -/
def plexOfCode (n : Nat) : Option Plex := if n = 1 then some .simplex else if n = 2 then some .duplex else none

/-- The side record at offset `off`; its mark offset counts when the mark-present flag is set. -/
def parseSide (slot : List Byte) (off : Nat) (marked : Bool) : SideRec where
  base := leAt slot off 4
  len := leAt slot (off + 4) 4
  stride := leAt slot (off + 8) 2
  image := leAt slot (off + 10) 2
  mark := if marked then some (leAt slot (off + 12) 4) else none

/-- The front side record. -/
def frontSide (slot : List Byte) : SideRec := parseSide slot 20 (sheetFlag slot 2)

/-- The back side record, when the back-side-present flag is set. -/
def backSide (slot : List Byte) : Option SideRec :=
  if sheetHasBack slot then some (parseSide slot 36 (sheetFlag slot 3)) else none

/-- The logical sheet formed from a SHEET order (R14, step 2). -/
def parseSheet (seq : Seq) (slot : List Byte) : LogicalSheet where
  seq := seq
  piece := sheetPiece slot
  index := sheetIndex slot
  last := sheetLast slot
  tray := (trayOfCode (byteAt slot 3)).getD 0
  plex := (plexOfCode (byteAt slot 2)).getD .simplex
  output := (stackerOfCode (byteAt slot 4)).getD .a
  length := sheetLength slot
  tag := sheetTag slot
  front := frontSide slot
  back := backSide slot

/-- The reserved fields of a SHEET order are zero (R175). -/
def sheetReservedOk (slot : List Byte) : Bool :=
  decide (byteAt slot 1 < 16) && zeroBetween slot 5 6 && zeroBetween slot 18 20 && zeroBetween slot 52 56 &&
  (sheetHasBack slot || zeroBetween slot 36 52) && (sheetFlag slot 2 || zeroBetween slot 32 36) &&
  (sheetFlag slot 3 || zeroBetween slot 48 52)

/-- A range of page memory overlaps one of the controller's own structures (R9, R172). -/
def overlapsOwn (base : BitVec 4) (c : Setup) (addr len : Nat) : Bool :=
  (ownRegions base c).any fun r => overlaps addr len r.1 r.2

/-- The RASTER checks of one side (R9). -/
def sideOk (base : BitVec 4) (c : Setup) (length : Nat) (s : SideRec) : Bool :=
  s.base % 64 == 0 && inRange 64 16777215 s.len && decide (s.base + s.len ≤ 4294967296) &&
  inRange 64 65535 s.stride && s.stride % 8 == 0 && inRange 1 length s.image &&
  !overlapsOwn base c s.base s.len &&
  (match s.mark with
    | none => true
    | some m => !c.markEnable || decide (m + (c.markLines - 1) * s.stride + 16 ≤ s.len))

/-- The PLEX checks (R9). -/
def plexOk (c : Setup) (slot : List Byte) : Bool :=
  match plexOfCode (byteAt slot 2) with
  | none => false
  | some .simplex => !sheetHasBack slot
  | some .duplex => sheetHasBack slot && c.loopLength != 0

/-- The checks of a SHEET order's own fields, the first failure giving the reason (R9). -/
def sheetFieldCheck (base : BitVec 4) (c : Setup) (slot : List Byte) : Option RejectReason :=
  if !inRange 1000 5000 (sheetLength slot) then some .length
  else if !(match trayOfCode (byteAt slot 3) with | none => false | some t => c.fitted t) then some .tray
  else if !plexOk c slot then some .plex
  else if !(sideOk base c (sheetLength slot) (frontSide slot) &&
      (match backSide slot with | none => true | some b => sideOk base c (sheetLength slot) b)) then some .raster
  else if (stackerOfCode (byteAt slot 4)).isNone then some .output
  else none

/-- The piece test (R10), PIECE_ORDER before OUTPUT_MIX (DEDUCED, log entry 16). -/
def pieceCheck (open? : Option OpenPiece) (slot : List Byte) : Option RejectReason :=
  let i := sheetIndex slot
  if !inRange 1 4095 i || (i == 4095 && !sheetLast slot) then some .pieceOrder
  else
    match open? with
    | none => if i = 1 then none else some .pieceOrder
    | some p =>
      if p.piece = sheetPiece slot ∧ i = p.lastIndex + 1 then
        if stackerOfCode (byteAt slot 4) = some p.output then none else some .outputMix
      else some .pieceOrder

/-- The reason for which a SHEET order is rejected at the steps 4 to 6 of R7, or none. -/
def judgeSheet (base : BitVec 4) (c : Setup) (open? : Option OpenPiece) (slot : List Byte) : Option RejectReason :=
  if !sheetReservedOk slot then some .field
  else
    match sheetFieldCheck base c slot with
    | some r => some r
    | none => pieceCheck open? slot

/-! ### Control orders -/

/-- The kind enable mask enables the kind (R8); RESUME and CLEARED are always enabled. -/
def kindEnabled (c : Setup) (k : Nat) : Bool := k == 3 || k == 5 || bitOf c.kindEnable.toNat k

/-- HOLD, RESUME, STANDBY and CLEARED have no field: bytes 1 to 55 are reserved (R175). -/
def bareReservedOk (slot : List Byte) : Bool := zeroBetween slot 1 56

/-- The piece id of a CANCEL order. -/
def cancelPieceId (slot : List Byte) : PieceId := BitVec.ofNat 32 (leAt slot 4 4)

/-- The reserved fields of a CANCEL order (R175). -/
def cancelReservedOk (slot : List Byte) : Bool := zeroBetween slot 1 4 && zeroBetween slot 8 56

/-- The reserved fields of a TALLY order (R175). -/
def tallyReservedOk (slot : List Byte) : Bool := zeroBetween slot 1 8 && zeroBetween slot 12 56

/-- The next serial of a TALLY order. -/
def tallySerial (slot : List Byte) : Serial := BitVec.ofNat 32 (leAt slot 8 4)

/-- The capacity of a DUMP order. -/
def dumpCapacity (slot : List Byte) : Nat := byteAt slot 4

/-- The destination of a DUMP order. -/
def dumpDest (slot : List Byte) : Nat := leAt slot 8 4

/-- The number of writes of a dump of `k` entries (R172). -/
def dumpWrites (k : Nat) : Nat := (k + 3) / 4

/-- The reserved fields of a DUMP order (R175). -/
def dumpReservedOk (slot : List Byte) : Bool :=
  zeroBetween slot 1 4 && zeroBetween slot 6 8 && zeroBetween slot 12 56

/-- The field values of a DUMP order (R7, R172). -/
def dumpFieldsOk (base : BitVec 4) (c : Setup) (slot : List Byte) : Bool :=
  dumpDest slot % 64 == 0 && inRange 1 32 (dumpCapacity slot) && decide (byteAt slot 5 ≤ 1) &&
  decide (dumpDest slot + 64 * dumpWrites (dumpCapacity slot) ≤ 4294967296) &&
  !overlapsOwn base c (dumpDest slot) (64 * dumpWrites (dumpCapacity slot))

/-! ### WATCH -/

/-- The WATCH order's action is DISABLE. -/
def watchDisables (slot : List Byte) : Bool := byteAt slot 2 == 0

/-- The unit that a WATCH order names. -/
def watchUnitOf (slot : List Byte) : UnitId := if byteAt slot 1 = 1 then .w1 else .w0

/-- A station code 1 to 12. -/
def stationOfCode (n : Nat) : Option Station := if n = 0 then none else allStations[n - 1]?

/-- An event kind code 1 to 6. -/
def eventOfCode (n : Nat) : SheetEventKind :=
  if n = 1 then .le else if n = 2 then .te else if n = 3 then .release else if n = 4 then .top
  else if n = 5 then .deliver else .spoil

/-- An action code 1 to 4. -/
def actionOfCode (n : Nat) : WatchAction :=
  if n = 1 then .report else if n = 2 then .hold else if n = 3 then .freeze else .pulse

/-- A direction code 1 to 3. -/
def dirOfCode (n : Nat) : WatchDir := if n = 1 then .read else if n = 2 then .write else .either

/-- The program of a WATCH order (R165). -/
def parseWatch (slot : List Byte) : WatchProgram where
  source :=
    if byteAt slot 3 = 1 then
      .bus (BitVec.ofNat 32 (leAt slot 8 4)) (BitVec.ofNat 32 (leAt slot 12 4)) (dirOfCode (byteAt slot 16))
        (if byteAt slot 17 = 4 then none else some (classOfCode (byteAt slot 17)))
    else
      .sheet (eventOfCode (byteAt slot 16)) (stationOfCode (byteAt slot 17))
        (if byteAt slot 18 = 1 then none else some (BitVec.ofNat 32 (leAt slot 20 4)))
  count := leAt slot 6 2
  afterW0 := byteAt slot 4 == 1
  action := actionOfCode (byteAt slot 2)
  keep := byteAt slot 5 == 1

/-- The reserved fields of a WATCH order (R175). -/
def watchReservedOk (slot : List Byte) : Bool :=
  if watchDisables slot then zeroBetween slot 3 56
  else if byteAt slot 3 = 1 then zeroBetween slot 18 56
  else if byteAt slot 3 = 2 then
    zeroBetween slot 8 16 && zeroBetween slot 19 20 && zeroBetween slot 24 56 &&
      (byteAt slot 18 != 1 || zeroBetween slot 20 24)
  else zeroBetween slot 24 56

/-- The station of a SHEET watch is ANY (255) or present in the station table (R166). -/
def watchStationOk (c : Setup) (n : Nat) : Bool :=
  n == 255 ||
    match stationOfCode n with
    | none => false
    | some st => (c.station st).present

/-- The field values of a WATCH order (R7, R166, R175). -/
def watchFieldsOk (c : Setup) (slot : List Byte) : Bool :=
  decide (byteAt slot 1 ≤ 1) &&
  (watchDisables slot ||
    (decide (byteAt slot 2 ≤ 4) && inRange 1 2 (byteAt slot 3) && decide (byteAt slot 4 ≤ 1) &&
      decide (byteAt slot 5 ≤ 1) && !(byteAt slot 4 == 1 && byteAt slot 1 == 0) &&
      (if byteAt slot 3 = 1 then inRange 1 3 (byteAt slot 16) && decide (byteAt slot 17 ≤ 4)
       else
        inRange 1 6 (byteAt slot 16) && watchStationOk c (byteAt slot 17) && decide (byteAt slot 18 ≤ 1))))

end Sys2Proof.Machine
end

