-- ==== Sys2Proof/Machine/Flags.lean ====
section
/-! DEFINITION. What follows from the state: the levels of MRUN and ATTN, the class of a tag, and the conditions that
the chapters name (idle condition, start condition, watch condition, throttle, deferral, eligibility, room). -/

namespace Sys2Proof.Machine

/-! ### Setup and lines -/

/-- The configuration in force. Without a setup in force (run state UNSET) no rule reads it; the default value stands
in so that the reading is total (DESIGN CHOICE, log entry 19). -/
def State.cfg (s : State) : Setup := s.setup.inForce.getD default

/-- A setup has been accepted: the run state is not UNSET (R38). -/
def State.isSet (s : State) : Bool := s.run.state != .unset

/-- The run state is RUNNING or DRAINING. -/
def State.moving (s : State) : Bool := s.run.state == .running || s.run.state == .draining

/-- MRUN is high in STARTING, RUNNING and DRAINING (R38). -/
def State.mrun (s : State) : Bool := s.run.state == .starting || s.run.state == .running || s.run.state == .draining

/-- ATTN is high while the visible head differs from the tail view, or while the memory-error flag is set (R163). -/
def State.attn (s : State) : Bool := s.report.visible != s.report.tail || s.pass.memError

/-- The default class map (R132). -/
def defaultClass (tag : BitVec 3) : InitClass :=
  if tag = 0 then .processor else if tag = 1 then .channel else if tag = 2 then .imager else .other

/-- The class of a tag in the class map in force (R132). -/
def State.classOf (s : State) (tag : BitVec 3) : InitClass :=
  match s.setup.inForce with
  | none => defaultClass tag
  | some c => c.classMap[tag.toNat]'tag.isLt

/-- The base address of the setup block (R145). -/
def State.setupBase (s : State) : Nat := s.setup.base.toNat * 268435456

/-- The level of TRAYRDYt. -/
def State.trayReady (s : State) (t : Fin 4) : Bool := s.pins.trayrdy[t]

/-- The level of the STKFULL line of a stacker. -/
def State.stackerFull (s : State) : Stacker → Bool
  | .a => s.pins.stkfullA
  | .b => s.pins.stkfullB

/-! ### Queues -/

/-- The forward queue has room (R131). -/
def State.fwdRoom (s : State) : Bool := decide (s.pass.fwd.length < 8)

/-- The own-access FIFO has room (R141). -/
def State.ownRoom (s : State) : Bool := decide (s.pass.own.length < 16)

/-- The occupancy of the outbound queue: the records queued, plus one while a dump reservation stands (R157). -/
def State.occupancy (s : State) : Nat := s.report.queue.length + if s.history.dump.isSome then 1 else 0

/-- The throttle is open: the occupancy is 5 or less (R162). -/
def State.throttleOpen (s : State) : Bool := decide (s.occupancy ≤ 5)

/-- The report ring has room (R156). -/
def State.ringRoom (s : State) : Bool := (s.report.write + 1) % s.cfg.reportSlots != s.report.tail

/-- Report-unit writes are held by setup control's decision or by a halt (R148, R164). -/
def State.writesHeld (s : State) : Bool := s.setup.fetch == .deciding || s.report.halted

/-- A head-word write is due (R160), as far as the indices and the queue decide it. -/
def State.headDue (s : State) : Bool :=
  s.report.write != s.report.head &&
    (s.report.queue.isEmpty || !s.ringRoom || decide (4 ≤ s.report.sinceHead))

/-! ### Sheets and pieces -/

/-- The logical sheets that attached path entries carry. -/
def State.attachedSheets (s : State) : List LogicalSheet := s.track.path.filterMap PathEntry.sheet

/-- Every logical sheet that the controller holds (R13): schedule queue, attached path entries, retained store. -/
def State.heldSheets (s : State) : List LogicalSheet := s.fetch.schedule ++ s.attachedSheets ++ s.track.store

/-- The sequence condition of R13: a held sequence lies 4,194,304 or more behind the counter. -/
def State.seqExhausted (s : State) : Bool :=
  s.heldSheets.any fun x => decide (4194304 ≤ (s.fetch.counter - x.seq).toNat)

/-- A SHEET order is deferred (R13). -/
def State.defers (s : State) : Bool := decide (64 ≤ s.fetch.schedule.length) || s.seqExhausted

/-- A logical sheet's piece is eligible (R17). -/
def State.pieceEligible (s : State) (x : LogicalSheet) : Bool :=
  match s.fetch.openPiece with
  | none => true
  | some p => !(atOrPast x.seq p.firstSeq && !p.eligible)

/-! ### Run-state conditions -/

/-- The watch condition of the silence count (R50). -/
def State.watchCondition (s : State) : Bool := s.moving && s.pins.tready && !s.time.estimate

/-- The start condition (R41), without the run state. -/
def State.startCondition (s : State) : Bool := !s.fetch.schedule.isEmpty && !s.run.standby && s.pins.cover

/-- The idle condition (R45). -/
def State.idleCondition (s : State) : Bool :=
  s.moving && !s.time.estimate && s.track.path.isEmpty && (s.fetch.schedule.isEmpty || s.run.standby)

/-- The idle wait is armed: it stands in the expectation list (R45). -/
def State.idleArmed (s : State) : Bool := s.expect.items.any fun i => i.kind == .idle

/-! ### Sensor lines and due items -/

/-- P has reached a position (R22). -/
def State.reached (s : State) (p : Pos) : Bool := atOrPast s.time.pos p

/-- The station that a sensor line serves, if any (R29, R30). -/
def State.stationOf (s : State) (line : Fin 16) : Option Station :=
  match s.setup.inForce with
  | none => none
  | some c => allStations.find? fun st => (c.station st).present && (c.station st).line == line.val

/-- The pending change of a station's line. -/
def State.stationChange (s : State) (st : Station) : Option PendingChange :=
  if h : (s.cfg.station st).line < 16 then s.expect.lines[(s.cfg.station st).line].change else none

/-- An expectation's expiry is held: its station's line has a pending change of the expected kind stamped in the
window (R24). -/
def State.holdsExpiry (s : State) (i : Item) : Bool :=
  match i.kind with
  | .edge _ st e =>
    match s.stationChange st with
    | none => false
    | some ch => ch.level == (e == .le) && i.inWindow ch.stamp
  | _ => false

/-- An item of the list is to be taken now: its due position is reached and, for an expectation, its expiry is not
held (R24, R34). Of two expectations that one pending change holds, the one that its completed edge does not meet is held
no longer, and so is due at once, dated at its expiry position (DESIGN CHOICE, log entry 46). -/
def State.itemDue (s : State) (i : Item) : Bool := s.reached i.due && !s.holdsExpiry i

/-- The pending change of a line completes now: P has reached its stamp plus D (R29). -/
def State.changeDue (s : State) (line : Fin 16) : Bool :=
  (s.stationOf line).isSome &&
    match s.expect.lines[line].change with
    | none => false
    | some ch => s.reached (plus ch.stamp s.cfg.debounce)

/-- Something falls on the position P and is still to be taken (R21). -/
def State.somethingDue (s : State) : Bool :=
  s.expect.items.any s.itemDue || (List.finRange 16).any s.changeDue

/-! ### Path entries -/

/-- The path entry with a launch number. -/
def State.entry? (s : State) (l : Launch) : Option PathEntry := s.track.path.find? fun e => e.launch == l

/-- The entry is attached (R74). -/
def PathEntry.attached (e : PathEntry) : Bool := e.sheet.isSome

/-- The release of the entry sends it toward a stacker (R62). -/
def PathEntry.towardStacker (e : PathEntry) : Bool :=
  e.attached && (e.leg == .second || e.ident.plex == .simplex)

/-- The terminal station that a route names (R80). -/
def terminalOf : Route → Station
  | .loop => .loopin
  | .stka => .stka
  | .stkb => .stkb
  | .purge => .purge

/-- The distance from the release position to a terminal station (R80). -/
def terminalDistance (c : Setup) : Route → Nat
  | .loop => c.dLi
  | .stka => c.dA
  | .stkb => c.dB
  | .purge => c.dP

/-- The route to a stacker. -/
def routeTo : Stacker → Route
  | .a => .stka
  | .b => .stkb

/-- The station of a stacker. -/
def stackerStation : Stacker → Station
  | .a => .stka
  | .b => .stkb

end Sys2Proof.Machine
end

