-- ==== Sys2Proof/Machine/Ops.lean ====
section
/-! DEFINITION. The named operations shared by the commands: handing records to the outbound queue and folding them
into open ones (R157, R158), changing the run state (R39), entering the event history (R171), the expectation list
(R33), path entries, and handing own accesses over (R141). -/

namespace Sys2Proof.Machine

/-! ### The outbound queue -/

/-- Fold into the open record that `f` accepts; none when no open record is accepted (R158). -/
def updateOpen (f : Record → Option Record) : List Queued → Option (List Queued)
  | [] => none
  | q :: qs =>
    match (if q.fixed then none else f q.record) with
    | some r => some ({ q with record := r } :: qs)
    | none => (updateOpen f qs).map (q :: ·)

/-- A record joins the outbound queue at its tail, open (R157, R158). -/
def handRecord (r : Record) (s : State) : State :=
  { s with report := { s.report with queue := s.report.queue ++ [{ record := r, fixed := false }] } }

/-- An occurrence of a coalescing kind folds into its slot's open record, or hands a new record (R158). -/
def handOrFold (f : Record → Option Record) (new : Record) (s : State) : State :=
  match updateOpen f s.report.queue with
  | some q => { s with report := { s.report with queue := q } }
  | none => handRecord new s

/-- A count that stays at 255 (R138, R152, R170). -/
def count255 (n : Nat) : Nat := min n 255

/-- Fold a change of the run state into an open STATE record, which keeps its old state (R39). -/
def foldState (new : StateRec) : Record → Option Record
  | .state r => some (.state { new with old := r.old })
  | _ => none

/-- The STATE record of a change from `old` to the state's run state (R39). -/
def handState (old : RunState) (cause : Option StopCause) (s : State) : State :=
  let r : StateRec :=
    { old := old, new := s.run.state, cause := cause, hold := s.run.hold, standby := s.run.standby, pos := s.time.pos }
  handOrFold (foldState r) (.state r) s

/-- The run state changes, with its STATE record (R38, R39). -/
def changeRun (new : RunState) (cause : Option StopCause) (s : State) : State :=
  handState s.run.state cause { s with run := { s.run with state := new } }

/-- Fold an outcome of setup control into an open SETUP record: it takes the new contents and its count rises (R152). -/
def foldSetup (new : SetupRec) : Record → Option Record
  | .setup r => some (.setup { new with count := count255 (r.count + 1) })
  | _ => none

/-- The SETUP record of a refusal (R152). -/
def handRefusal (outcome : SetupOutcome) (fetched : Byte) (s : State) : State :=
  let r : SetupRec := { outcome := outcome, fetched := fetched, inForce := s.setup.revision, tally := s.tally, count := 1 }
  handOrFold (foldSetup r) (.setup r) s

/-- The open SETUP record of a queue, if any, and the queue without it. -/
def takeOpenSetup : List Queued → Option SetupRec × List Queued
  | [] => (none, [])
  | q :: qs =>
    let rest := takeOpenSetup qs
    match q.fixed, q.record with
    | false, .setup r => (some r, qs)
    | _, _ => (rest.1, q :: rest.2)

/-- The SETUP record of an acceptance stands at the head of the outbound queue, moving an open one there (R152). -/
def handAcceptance (fetched : Byte) (s : State) : State :=
  let taken := takeOpenSetup s.report.queue
  let n := match taken.1 with
    | none => 1
    | some r => count255 (r.count + 1)
  let r : SetupRec := { outcome := .accepted, fetched := fetched, inForce := s.setup.revision, tally := s.tally, count := n }
  { s with report := { s.report with queue := { record := .setup r, fixed := false } :: taken.2 } }

/-- Fold a policy outcome into the open POLICY record of its row: the count rises and the mixed flag is set when the
outcomes differ; address, length, tag, class and outcome stay (R138). So do the value written and the tail view of a
TAIL_VALUE record, which R138 does not name (DESIGN CHOICE, log entry 43). -/
def foldPolicy (row : PolicyRow) (outcome : PolicyField) : Record → Option Record
  | .policy r =>
    if r.row = row then
      some (.policy { r with count := count255 (r.count + 1), mixed := r.mixed || r.outcome != outcome })
    else none
  | _ => none

/-- Open or extend the POLICY record of a row for an access (R138, R139). -/
def handPolicy (row : PolicyRow) (outcome : PolicyField) (f : Forwarded) (value view : Option Nat) (s : State) : State :=
  handOrFold (foldPolicy row outcome)
    (.policy
      { row := row, outcome := outcome, count := 1, mixed := false, addr := f.access.addr, len := f.access.len
        tag := f.access.tag, cls := f.cls, value := value, view := view }) s

/-! ### Outputs -/

/-- An output of the event. -/
def emit (o : Output) (s : State) : State := { s with out := s.out ++ [o] }

/-- The start of an event: the outputs of the event before are over. -/
def begin (s : State) : State := { s with out := [] }

/-- WOUT gives one pulse in an event, and none in UNSET (R38, R170), also when one unit fires several times in the event
(DESIGN CHOICE, log entry 39). -/
def pulseWout (s : State) : State := if !s.isSet || s.out.contains .wout then s else emit .wout s

/-! ### The event history -/

/-- The newest `n` of a list. -/
def newest {α : Type} (n : Nat) (l : List α) : List α := l.drop (l.length - n)

/-- Append an entry to the event history unless it is frozen; the 32 most recent are kept (R171; DEDUCED, log entry
12). -/
def appendHist (kind : HistKind) (station : Option Station) (serial : Option Serial) (seq : Option Seq)
    (launch : Option Launch) (pos : Pos) (s : State) : State :=
  if s.history.frozen then s
  else
    let e : HistEntry :=
      { kind := kind, station := station, serial := serial, seq := seq, launch := launch, pos := pos
        runState := s.run.state }
    { s with history := { s.history with entries := newest 32 (s.history.entries ++ [e]) } }

/-! ### The expectation list -/

/-- An item joins the list at its place by due position (R33). -/
def addItem (it : Item) (s : State) : State :=
  { s with expect := { s.expect with items := insertItem it s.expect.items } }

/-- Arm an edge expectation; in estimate mode its late tolerance is doubled from the start (R26). -/
def armEdge (launch : Launch) (st : Station) (e : Edge) (pos : Pos) (early late : Nat) (s : State) : State :=
  addItem
    { kind := .edge launch st e, pos := pos, early := early, late := if s.time.estimate then widened late else late } s

/-- Arm the LE expectation of a station with the station's own tolerances (R23). -/
def armLE (launch : Launch) (st : Station) (pos : Pos) (s : State) : State :=
  armEdge launch st .le pos (s.cfg.station st).early (s.cfg.station st).late s

/-- Arm a TE expectation; both tolerances are the trail tolerance (R25). -/
def armTE (launch : Launch) (st : Station) (pos : Pos) (s : State) : State :=
  armEdge launch st .te pos s.cfg.trailTol s.cfg.trailTol s

/-- Arm a position event (R34). -/
def armEvent (kind : ItemKind) (pos : Pos) (s : State) : State :=
  addItem { kind := kind, pos := pos, early := 0, late := 0 } s

/-- Withdraw the items that a predicate names (R33). -/
def withdraw (p : Item → Bool) (s : State) : State :=
  { s with expect := { s.expect with items := s.expect.items.filter fun i => !p i } }

/-- An item that is met, expires or fires leaves the list (R33). -/
def dropItem (it : Item) (s : State) : State :=
  { s with expect := { s.expect with items := s.expect.items.erase it } }

/-! ### Path entries and the loop -/

/-- Change the path entry with a launch number. -/
def updEntry (l : Launch) (f : PathEntry → PathEntry) (s : State) : State :=
  { s with track := { s.track with path := s.track.path.map fun e => if e.launch = l then f e else e } }

/-- A member leaves the loop FIFO at its place and U falls by its length plus the loop gap (R64, R66). -/
def leaveLoop (l : Launch) (length : Nat) (s : State) : State :=
  if s.track.loop.contains l then
    { s with
      track := { s.track with loop := s.track.loop.erase l }
      plan := { s.plan with commitment := s.plan.commitment - (length + s.cfg.loopGap) } }
  else s

/-- The last stacker release becomes none when the entry it names is detached or leaves the path table (R62). -/
def forgetStacker (l : Launch) (s : State) : State :=
  match s.plan.lastStacker with
  | none => s
  | some p => if p.1 = l then { s with plan := { s.plan with lastStacker := none } } else s

/-- The current side ends when it is of this entry; its underrun check is withdrawn (R105). -/
def endSide (l : Launch) (s : State) : State :=
  match s.image.current with
  | none => s
  | some c =>
    if c.launch = l then
      withdraw (fun i => i.kind == .check l) { s with image := { s.image with current := none } }
    else s

/-- An entry leaves the path table: its outstanding items are withdrawn and it leaves the loop FIFO (R75). -/
def leavePath (e : PathEntry) (s : State) : State :=
  let s := withdraw (fun i => i.kind.launch? == some e.launch) s
  let s := forgetStacker e.launch (endSide e.launch (leaveLoop e.launch e.ident.length s))
  { s with track := { s.track with path := s.track.path.filter fun x => x.launch != e.launch } }

/-! ### The lock table -/

/-- The lock table entries of a logical sheet: one for each side (R15). -/
def locksOf (x : LogicalSheet) : List Lock :=
  { seq := x.seq, side := .front, base := x.front.base, len := x.front.len } ::
    match x.back with
    | none => []
    | some b => [{ seq := x.seq, side := .back, base := b.base, len := b.len }]

/-- Remove the lock table entries of the sheets with these sequences. -/
def unlock (seqs : List Seq) (s : State) : State :=
  { s with pass := { s.pass with locks := s.pass.locks.filter fun k => !seqs.contains k.seq } }

/-! ### The schedule queue -/

/-- A sheet goes in at its place by acceptance sequence, ahead of the first sheet with a later sequence (R16, R113). -/
def insertSheet (x : LogicalSheet) : List LogicalSheet → List LogicalSheet
  | [] => [x]
  | y :: ys => if later y.seq x.seq then x :: y :: ys else y :: insertSheet x ys

/-- Requeue logical sheets together (R113). -/
def requeue (xs : List LogicalSheet) (s : State) : State :=
  { s with fetch := { s.fetch with schedule := xs.foldl (fun q x => insertSheet x q) s.fetch.schedule } }

/-! ### Own accesses -/

/-- An own access joins the own-access FIFO (R141). -/
def pushOwn (a : OwnAccess) (s : State) : State := { s with pass := { s.pass with own := s.pass.own ++ [a] } }

/-- The granted access has completed; the memory port is free. -/
def freePort (s : State) : State := { s with pass := { s.pass with granted := none } }

/-- The own access that the memory port carries. -/
def State.grantedOwn (s : State) : Option OwnAccess :=
  match s.pass.granted with
  | some (.own a) => some a
  | _ => none

/-- The forwarded access that the memory port carries. -/
def State.grantedForward (s : State) : Option Forwarded :=
  match s.pass.granted with
  | some (.forwarded f) => some f
  | _ => none

end Sys2Proof.Machine
end

