-- ==== Sys2Proof/Machine/Watch.lean ====
section
/-! DEFINITION. The watch units: matching (R167, R168), counting and firing (R169), the WATCH_HIT (R170), and the sheet
events that are offered to the units and entered in the history (R96). -/

namespace Sys2Proof.Machine

/-- A watch unit by its name. -/
def WatchUnits.unit (w : WatchUnits) : UnitId → WatchUnit
  | .w0 => w.w0
  | .w1 => w.w1

/-- Set a watch unit. -/
def setUnit (u : UnitId) (x : WatchUnit) (s : State) : State :=
  match u with
  | .w0 => { s with watch := { s.watch with w0 := x } }
  | .w1 => { s with watch := { s.watch with w1 := x } }

/-! ### Matching -/

/-- The unit's direction is EITHER or names the access's direction (R167). -/
def dirMatches : WatchDir → Bool → Bool
  | .either, _ => true
  | .read, write => !write
  | .write, write => write

/-- At least one byte of the access agrees with the address in every bit position that the mask has set (R167). In an
access that runs past 0xFFFFFFFF the bytes beyond have the addresses 0, 1, ... (DESIGN CHOICE, log entry 44). -/
def addressMatches (addr mask : BitVec 32) (b : BusItem) : Bool :=
  (List.range b.len).any fun k => ((BitVec.ofNat 32 (b.addr + k) ^^^ addr) &&& mask) == 0

/-- A program counts a board bus access as a match (R167). -/
def matchesBus (p : WatchProgram) (b : BusItem) : Bool :=
  match p.source with
  | .bus addr mask dir cls =>
    addressMatches addr mask b && dirMatches dir b.write &&
      (match cls with | none => true | some k => k == b.cls)
  | .sheet _ _ _ => false

/-- A program counts a sheet event as a match (R168). -/
def matchesSheet (p : WatchProgram) (e : SheetEvent) : Bool :=
  match p.source with
  | .bus _ _ _ _ => false
  | .sheet kind station piece =>
    kind == e.kind && (match station with | none => true | some st => e.station == some st) &&
      (match piece with | none => true | some x => x == e.piece)

/-- A program counts an item as a match. -/
def matchesItem (p : WatchProgram) : HitItem → Bool
  | .bus b => matchesBus p b
  | .sheet e => matchesSheet p e

/-- A unit counts a match while ARMED and in no other state (R165). -/
def unitMatches (w : WatchUnit) (item : HitItem) : Bool :=
  w.state == .armed && (match w.program with | none => false | some p => matchesItem p item)

/-! ### Firing -/

/-- Fold a hit into the unit's open WATCH_HIT record (R170). -/
def foldHit (u : UnitId) : Record → Option Record
  | .watchHit r =>
    if r.particulars.unit = u then some (.watchHit { r with hits := count255 (r.hits + 1) }) else none
  | _ => none

/-- A WATCH_HIT is made: the pending hit takes it, and it folds into the open record or hands a new one (R170). -/
def makeHit (u : UnitId) (part : HitParticulars) (s : State) : State :=
  let w := s.watch.unit u
  let w := { w with hits := count255 (w.hits + 1), first := if w.hits = 0 then some part else w.first }
  handOrFold (foldHit u) (.watchHit { particulars := part, hits := 1, carried := false }) (setUnit u w s)

/-- The action of a firing on the rest of the controller (R170). -/
def fireAction (a : WatchAction) (s : State) : State :=
  match a with
  | .report => s
  | .hold => { s with run := { s.run with hold := true } }
  | .freeze => { s with history := { s.history with frozen := true } }
  | .pulse => pulseWout s

/-- After firing, a PULSE unit stays ARMED with its count again and any other becomes SPENT (R169). -/
def afterFiring (w : WatchUnit) (p : WatchProgram) : WatchUnit :=
  if p.action = .pulse then { w with remaining := p.count } else { w with state := .spent }

/-- A firing of W0 arms a WAITING W1 with its own count (R169). -/
def armW1 (s : State) : State :=
  match s.watch.w1.state, s.watch.w1.program with
  | .waiting, some p => setUnit .w1 { s.watch.w1 with state := .armed, remaining := p.count } s
  | _, _ => s

/-- A unit fires (R169, R170). -/
def fire (u : UnitId) (p : WatchProgram) (item : HitItem) (s : State) : State :=
  let s := fireAction p.action s
  let s := makeHit u
    { unit := u, action := p.action, pos := s.time.pos, runState := s.run.state, hold := s.run.hold, item := item } s
  let s := setUnit u (afterFiring (s.watch.unit u) p) s
  if u = .w0 then armW1 s else s

/-- A match lowers the remaining count, or fires the unit when the count is 0 (R169). -/
def countMatch (u : UnitId) (item : HitItem) (s : State) : State :=
  let w := s.watch.unit u
  match w.program with
  | none => s
  | some p => if 0 < w.remaining then setUnit u { w with remaining := w.remaining - 1 } s else fire u p item s

/-- An item is offered to both units. Whether W1 matches is decided before W0 acts on it (R169); W0 acts first (log
entry 4). -/
def offer (item : HitItem) (s : State) : State :=
  let m0 := unitMatches s.watch.w0 item
  let m1 := unitMatches s.watch.w1 item
  let s := if m0 then countMatch .w0 item s else s
  if m1 then countMatch .w1 item s else s

/-! ### Sheet events -/

/-- A sheet event of a path entry: its entry joins the history first, then it is offered (R96, R171). -/
def sheetEvent (kind : SheetEventKind) (hist : HistKind) (station : Option Station) (e : PathEntry) (pos : Pos)
    (s : State) : State :=
  offer
    (.sheet
      { kind := kind, station := station, piece := e.ident.piece, launch := e.launch, seq := some e.ident.seq
        serial := e.serial })
    (appendHist hist station e.serial (some e.ident.seq) (some e.launch) pos s)

end Sys2Proof.Machine
end

