-- ==== Sys2Proof/Machine/Recovery.lean ====
section
/-! DEFINITION. The recovery unit (07_spoilage_stops_and_recovery.md): detaching (R112), underrun and cascade (R114),
stops (R43, R116 to R122), cancellation (R123 to R127) and the work of an accepted CLEARED (R128). -/

namespace Sys2Proof.Machine

/-! ### Detaching -/

/-- The entry as detaching leaves it: DETACHED with its reason, and PURGE in place of an unset route (R112). -/
def PathEntry.detachedAs (r : SpoilReason) (e : PathEntry) : PathEntry :=
  { e with sheet := none, reason := some r, route := some (e.route.getD .purge) }

/-- Detach an attached path entry; a detached one is left as it is (R112). The logical sheet's way is the caller's. -/
def detach (r : SpoilReason) (e : PathEntry) (s : State) : State :=
  if e.attached then
    let s := updEntry e.launch (PathEntry.detachedAs r) s
    let s := if e.route.isNone then leaveLoop e.launch e.ident.length s else s
    let s := withdraw (fun i => i.kind == .top e.launch) s
    forgetStacker e.launch (endSide e.launch s)
  else s

/-- Detach each entry of a list. -/
def detachAll (r : SpoilReason) (es : List PathEntry) (s : State) : State :=
  es.foldl (fun s e => detach r e s) s

/-! ### Underrun -/

/-- The attached path entries later in sequence than `q` (R114, step 2). -/
def State.laterAttached (s : State) (q : Seq) : List PathEntry :=
  s.track.path.filter fun e => e.attached && later e.ident.seq q

/-- An underrun of an attached entry: it and every later attached entry are detached and requeued together, and the
underrun enters the history (R114). -/
def underrun (e : PathEntry) (side : Side) (pos : Pos) (s : State) : State :=
  let later := s.laterAttached e.ident.seq
  let sheets := (e :: later).filterMap PathEntry.sheet
  let s := detachAll .cascade later (detach .underrun e s)
  let s := requeue sheets s
  appendHist (.underrun side later.length) none e.serial (some e.ident.seq) (some e.launch) pos s

/-! ### Stops -/

/-- The run states in which a stop cause stops (R43). -/
def stopsIn : StopCause → RunState → Bool
  | .transportStart, r => r == .starting
  | .coverOpen, r => r == .starting || r == .running || r == .draining
  | .encoderDrained, r => r == .draining
  | .memory, r => r == .idle || r == .starting || r == .running || r == .draining
  | _, r => r == .running || r == .draining

/-- The reason with which a stop reports an entry (R118); STOP stands in where a detached entry has none (log entry 22). -/
def stopReason (e : PathEntry) : SpoilReason :=
  if e.attached then (if e.phase = .exiting then .atExit else .stop) else e.reason.getD .stop

/-- The SHEET_SPOILED record of an entry (R95). -/
def spoilRecord (e : PathEntry) (reason : SpoilReason) (place : Option Station) (pos : Pos) : Record :=
  .sheetSpoiled
    { seq := e.ident.seq, piece := e.ident.piece, index := e.ident.index, last := e.ident.last, tag := e.ident.tag
      serial := e.serial, launch := e.launch, leg := e.leg, blank := e.blank, reason := reason, place := place
      pos := pos }

/-- Report an entry with a SHEET_SPOILED record, its SPOIL sheet event and its history entry (R93, R94, R96, R118). A
WATCH_HIT of the SPOIL event stands right behind its entry's record, at a stop ahead of the next entry's record and of
PIECE_VOID (DESIGN CHOICE, log entry 36). -/
def reportSpoiled (e : PathEntry) (reason : SpoilReason) (place : Option Station) (pos : Pos) (s : State) : State :=
  sheetEvent .spoil (.spoil reason) place e pos (handRecord (spoilRecord e reason place pos) s)

/-- The entry after a stop: DETACHED, with the reason reported (R118). -/
def PathEntry.stopped (e : PathEntry) : PathEntry :=
  if e.attached then { e with sheet := none, reason := some (stopReason e) } else e

/-- A print belongs to the retained piece (R119). -/
def belongsTo (store : List LogicalSheet) (p : StackerPiece) (e : PathEntry) : Bool :=
  match store with
  | [] => false
  | h :: _ => e.ident.piece == p.piece && e.ident.seq == h.seq + BitVec.ofNat 24 e.ident.index - 1

/-- The piece at the stacker is broken by a stop that found the path entries `path` (R121). -/
def State.breaksPiece (s : State) (path : List PathEntry) : Bool :=
  s.cfg.recovery == .piece && !s.track.store.isEmpty &&
    match s.track.piece with
    | none => false
    | some p => !p.committed && path.any fun e => e.attached && belongsTo s.track.store p e

/-- Break the retained piece: PIECE_VOID, requeue of the retained store, empty stacker piece record (R122). -/
def breakPiece (s : State) : State :=
  match s.track.piece with
  | none => s
  | some p =>
    let s := handRecord
      (.pieceVoid { piece := p.piece, count := s.track.store.length, first := p.firstSerial, last := p.lastSerial }) s
    let s := requeue s.track.store s
    { s with track := { s.track with store := [], piece := none } }

/-- The recovery unit's work at a stop (R116), with the snapshot lock clear. Its STOP history entry takes station, position,
serial and launch number from the snapshot (R171) and carries no acceptance sequence (DESIGN CHOICE, log entry 45). -/
def stopWork (snap : Snapshot) (s : State) : State :=
  let path := s.track.path
  let s := { s with recover := { snapshot := some snap, lock := true } }
  let s := handRecord (.fault { snapshot := snap, spoiled := path.length, estimate := s.time.estimate }) s
  let s := path.foldl (fun s e => reportSpoiled e (stopReason e) none snap.pos s) s
  let s :=
    { s with
      track := { s.track with path := path.map PathEntry.stopped }
      plan := { s.plan with lastStacker := none } }
  let s := requeue (path.filterMap PathEntry.sheet) s
  let s := if s.breaksPiece path then breakPiece s else s
  appendHist (.stop snap.cause) snap.station snap.serial none snap.launch snap.pos s

/-- What the other blocks do at entry into STOPPED: the start timer stops, the expectation list is emptied, the planner
forgets its staged entry and its gap, the current side ends (R37, R43, R70, R105). -/
def haltPath (s : State) : State :=
  { s with
    run := { s.run with timer := none }
    expect := { s.expect with items := [] }
    plan := { s.plan with staged := none, gapMet := true, lastRelease := none }
    image := { s.image with current := none } }

/-- A stop cause is handed over (R43): it stops the controller in the run states of the table, and is nothing in the
others. -/
def stop (cause : StopCause) (station : Option Station) (pos : Pos) (launch : Option Launch) (serial : Option Serial)
    (s : State) : State :=
  if stopsIn cause s.run.state then
    let snap : Snapshot :=
      { cause := cause, station := station, pos := pos, serial := serial, launch := launch, former := s.run.state }
    let s := haltPath (changeRun .stopped (some cause) s)
    if s.recover.lock then s else stopWork snap s
  else s

/-- A stop cause that names no station and no entry; its position is P (R43). -/
def stopAtP (cause : StopCause) (s : State) : State := stop cause none s.time.pos none none s

/-- A path fault of an entry (R36). -/
def pathFault (cause : StopCause) (station : Station) (pos : Pos) (launch : Launch) (s : State) : State :=
  stop cause (some station) pos (some launch) ((s.entry? launch).bind PathEntry.serial) s

/-! ### Cancellation -/

/-- The entry is attached to a sheet of the piece (R123). -/
def PathEntry.ofPiece (p : PieceId) (e : PathEntry) : Bool :=
  match e.sheet with
  | none => false
  | some x => x.piece == p

/-- The stacker piece record names the piece (R123). -/
def State.recordNames (s : State) (p : PieceId) : Bool :=
  match s.track.piece with
  | none => false
  | some r => r.piece == p

/-- Some held sheet has the piece id, or the stacker piece record names it (R123). -/
def State.pieceKnown (s : State) (p : PieceId) : Bool := s.heldSheets.any (fun x => x.piece == p) || s.recordNames p

/-- The sheets of the piece leave the schedule queue with their lock table entries (R124). -/
def cancelPending (p : PieceId) (s : State) : State :=
  let gone := s.fetch.schedule.filter fun x => x.piece == p
  let s := { s with fetch := { s.fetch with schedule := s.fetch.schedule.filter fun x => x.piece != p } }
  unlock (gone.map LogicalSheet.seq) s

/-- The attached path entries of the piece are detached and their sheets released (R125). -/
def cancelInPath (p : PieceId) (s : State) : State :=
  let es := s.track.path.filter (PathEntry.ofPiece p)
  unlock ((es.filterMap PathEntry.sheet).map LogicalSheet.seq) (detachAll .cancelled es s)

/-- The delivered sheets of the piece are voided: the retained store and the stacker piece record are emptied (R126). -/
def cancelDelivered (s : State) : State :=
  let s := unlock (s.track.store.map LogicalSheet.seq) s
  { s with track := { s.track with store := [], piece := none } }

/-- The PIECE_CANCELLED record of a cancel, made of the state before it (R126). -/
def cancelRecord (p : PieceId) (s : State) : PieceCancelledRec :=
  let named := match s.track.piece with
    | none => none
    | some r => if r.piece = p then some r else none
  { piece := p
    pendingCount := (s.fetch.schedule.filter fun x => x.piece == p).length
    inPath := (s.track.path.filter (PathEntry.ofPiece p)).length
    voided := match named with
      | none => 0
      | some r => r.count
    first := named.map StackerPiece.firstSerial
    last := named.map StackerPiece.lastSerial
    committed := match named with
      | none => false
      | some r => r.committed }

/-- Cancel a piece (R124 to R126). -/
def cancelPiece (p : PieceId) (s : State) : State :=
  let r := cancelRecord p s
  let named := s.recordNames p
  let s := cancelInPath p (cancelPending p s)
  let s := if named then cancelDelivered s else s
  handRecord (.pieceCancelled r) s

/-- The cancel of the open piece implied by a rejected SHEET order; the open piece record is closed whatever is found
(R12, R127). -/
def impliedCancel (s : State) : State :=
  match s.fetch.openPiece with
  | none => s
  | some o =>
    let s := if s.pieceKnown o.piece then cancelPiece o.piece s else s
    { s with fetch := { s.fetch with openPiece := none } }

/-! ### Clearing the path -/

/-- The recovery unit's work for an accepted CLEARED, without the history entry (R128). -/
def clearPath (s : State) : State :=
  { s with
    track := { s.track with path := [], loop := [] }
    plan := { s.plan with commitment := 0, lastStacker := none }
    expect := { s.expect with items := [] }
    image := { s.image with current := none }
    recover := { s.recover with lock := false } }

/-- The timebase leaves estimate mode at an accepted CLEARED (R54). -/
def leaveEstimate (s : State) : State :=
  { s with
    time := { s.time with estimate := false, acc := 0, silence := 0, estTicks := 0, restored := false } }

end Sys2Proof.Machine
end

