-- ==== Sys2Proof/Machine/Planner.lean ====
section
/-! DEFINITION. The feed planner (04_feed_planning_and_duplex_interleave.md): release at the gate (R62, R68), the choice
of the next launch (R56 to R60), the pick (R61, R63) and the re-feed (R65, R82). -/

namespace Sys2Proof.Machine

/-! ### Release -/

/-- The gap wait is armed at a position; at one that P has already reached it fires at once (R69). -/
def armGap (pos : Pos) (s : State) : State :=
  if s.reached pos then { s with plan := { s.plan with gapMet := true } }
  else armEvent .gap pos { s with plan := { s.plan with gapMet := false } }

/-- The last stacker release allows this entry's release (R62). -/
def State.stackerAllows (s : State) (e : PathEntry) : Bool :=
  !e.towardStacker ||
    match s.plan.lastStacker with
    | none => true
    | some p => p.2 == e.ident.output

/-- The staged entry is released now (R62). -/
def State.releasable (s : State) (e : PathEntry) : Bool :=
  e.phase == .atGate && s.plan.gapMet && !s.run.hold && s.moving && s.stackerAllows e

/-- A first-leg release of an attached entry gives the serial (R68, step 4). -/
def PathEntry.takesSerial (e : PathEntry) : Bool := e.leg == .first && e.attached

/-- The entry as a release leaves it: its release position, phase TRAVEL, the flags of the leg clear, and the serial
(R68, R77). -/
def PathEntry.releasedAt (pos : Pos) (serial : Serial) (e : PathEntry) : PathEntry :=
  { e with
    phase := .travel, releasePos := some pos, divTaken := false, fuseReached := false
    serial := if e.takesSerial then some serial else e.serial }

/-- The retained tally's next serial advances by one when the release takes it (R68, R154). -/
def takeSerial (e : PathEntry) (s : State) : State :=
  if e.takesSerial then { s with tally := { s.tally with nextSerial := s.tally.nextSerial + 1 } } else s

/-- The items armed at a release: XFER LE and DIV, and TOP for an attached entry (R77, R99). -/
def armLeg (e : PathEntry) (pos : Pos) (s : State) : State :=
  let s := armLE e.launch .xfer (plus pos s.cfg.dX) s
  let s := armEvent (.div e.launch) (plus pos s.cfg.dDv) s
  if e.attached then armEvent (.top e.launch) (plus pos s.cfg.dTop) s else s

/-- The planner's record of a release (R68, step 6), with the gap wait at the gap position (R27). -/
def noteRelease (e : PathEntry) (pos : Pos) (s : State) : State :=
  let s :=
    { s with
      plan :=
        { s.plan with
          lastRelease := some (pos, e.ident.length)
          lastStacker := if e.towardStacker then some (e.launch, e.ident.output) else s.plan.lastStacker } }
  armGap (plus (plus pos e.ident.length) s.cfg.minGap) s

/-- The release of the entry at the gate (R68). -/
def release (e : PathEntry) (s : State) : State :=
  let pos := s.time.pos
  let e' := e.releasedAt pos s.tally.nextSerial
  let s := emit .gate s
  let s := updEntry e.launch (fun _ => e') s
  let s := { s with plan := { s.plan with staged := none } }
  let s := takeSerial e s
  let s := noteRelease e pos (armLeg e pos s)
  sheetEvent .release (.release e.leg) none e' pos s

/-- A staged entry that may go is released (R62). -/
def tryRelease (s : State) : State :=
  match s.plan.staged.bind s.entry? with
  | none => s
  | some e => if s.releasable e then release e s else s

/-! ### Choosing the launch -/

/-- The loop room test for a sheet of length `l` (R28). -/
def State.loopRoom (s : State) (l : Nat) : Bool :=
  s.cfg.loopLength != 0 && decide (s.plan.commitment + l + s.cfg.loopGap ≤ s.cfg.loopLength)

/-- The schedule head is eligible for a pick (R57). -/
def State.eligible (s : State) (h : LogicalSheet) : Bool :=
  s.pieceEligible h && s.trayReady h.tray && !s.stackerFull h.output &&
    decide (s.track.path.length < s.cfg.pathDepth)

/-- The head of the loop FIFO is ready for re-feed (R58). -/
def State.refeedReady (s : State) (e : PathEntry) : Bool :=
  e.phase == .parked && (!e.attached || !s.stackerFull e.ident.output)

/-- The re-feed case of R59 applies; `h` is the schedule head, if any. -/
def State.refeedCase (s : State) (h : Option LogicalSheet) : Bool :=
  !s.track.loop.isEmpty &&
    (s.run.state == .draining ||
      match h with
      | none => true
      | some x => x.plex == .simplex || (x.plex == .duplex && !s.loopRoom x.length) || !s.eligible x)

/-- The pick case of R59 applies to the schedule head. -/
def State.pickCase (s : State) (h : LogicalSheet) : Bool :=
  s.run.state == .running && s.eligible h &&
    (if h.plex = .duplex then s.loopRoom h.length else s.track.loop.isEmpty)

/-- What the planner does next (R59). -/
inductive Launching where
  | pick (h : LogicalSheet)
  | refeed (e : PathEntry)
  | wait
  deriving DecidableEq, Repr

/-- The planner's decision, with permission given (R59). -/
def State.decision (s : State) : Launching :=
  if s.refeedCase s.fetch.schedule.head? then
    match s.track.loop.head?.bind s.entry? with
    | none => .wait
    | some e => if s.refeedReady e then .refeed e else .wait
  else
    match s.fetch.schedule.head? with
    | none => .wait
    | some h => if s.pickCase h then .pick h else .wait

/-- Permission to launch (R56). -/
def State.mayLaunch (s : State) : Bool := s.plan.staged.isNone && !s.run.hold && s.throttleOpen && s.moving

/-! ### Pick and re-feed -/

/-- The print identity taken at the pick (R74). -/
def identityOf (h : LogicalSheet) : PrintIdentity where
  seq := h.seq
  piece := h.piece
  index := h.index
  last := h.last
  tag := h.tag
  plex := h.plex
  output := h.output
  length := h.length

/-- The path entry that a pick creates (R61, step 2). -/
def newEntry (l : Launch) (pos : Pos) (h : LogicalSheet) : PathEntry where
  launch := l
  sheet := some h
  ident := identityOf h
  reason := none
  serial := none
  leg := .first
  phase := .feeding
  route := none
  blank := false
  pickPos := pos
  refeedPos := none
  releasePos := none
  divTaken := false
  fuseReached := false

/-- A duplex pick joins the loop FIFO at its tail and U rises by its length plus the loop gap (R61, R63). -/
def commitLoop (l : Launch) (h : LogicalSheet) (s : State) : State :=
  if h.plex = .duplex then
    { s with
      track := { s.track with loop := s.track.loop ++ [l] }
      plan := { s.plan with commitment := s.plan.commitment + (h.length + s.cfg.loopGap) } }
  else s

/-- The pick of the schedule head (R61). -/
def pick (h : LogicalSheet) (s : State) : State :=
  let l := s.plan.counter
  let pos := s.time.pos
  let s := { s with fetch := { s.fetch with schedule := s.fetch.schedule.tail } }
  let s :=
    { s with
      track := { s.track with path := s.track.path ++ [newEntry l pos h] }
      plan := { s.plan with counter := l + 1, staged := some l } }
  let s := armLE l (feedStation h.tray) (plus pos (s.cfg.trays[h.tray]).f) s
  let s := armLE l .reg (plus pos (s.cfg.trays[h.tray]).p) s
  let s := emit (.pick h.tray) (commitLoop l h s)
  appendHist (.pick h.tray) none none (some h.seq) (some l) pos s

/-- The entry as a re-feed leaves it: leg SECOND, phase REFEEDING, the flags of the leg clear, blank if detached (R65,
R82). -/
def PathEntry.refedAt (pos : Pos) (e : PathEntry) : PathEntry :=
  { e with
    leg := .second, phase := .refeeding, refeedPos := some pos, divTaken := false, fuseReached := false
    blank := e.blank || !e.attached }

/-- The re-feed of the head of the loop FIFO (R65, R82). -/
def refeed (e : PathEntry) (s : State) : State :=
  let pos := s.time.pos
  let e' := e.refedAt pos
  let s := emit .refeed s
  let s := updEntry e.launch (fun _ => e') s
  let s := armLE e.launch .loopout pos s
  let s := armLE e.launch .reg (plus pos s.cfg.dLr) s
  let s := armTE e.launch .loopout (plus pos e.ident.length) s
  let s := { s with plan := { s.plan with staged := some e.launch } }
  appendHist (.refeed e'.blank) none e.serial (some e.ident.seq) (some e.launch) pos s

/-- The planner takes its staging decision (R56, R59, R60). -/
def tryStage (s : State) : State :=
  if s.mayLaunch then
    match s.decision with
    | .pick h => pick h s
    | .refeed e => refeed e s
    | .wait => s
  else s

end Sys2Proof.Machine
end

