-- ==== Sys2Proof/Machine/Settle.lean ====
section
/-! DEFINITION. What every event ends with: the conditions that are taken up again whenever one of their inputs changes
(the end of a drain R52, the start condition R41, the planner's release and staging R60, R62, the idle condition R45,
the silence count R50), and the movement of P over the counts of travel taken in (R21). -/

namespace Sys2Proof.Machine

/-! ### Run state -/

/-- The path table is empty in DRAINING with estimate mode on: ENCODER_DRAINED (R52). -/
def drainStep (s : State) : State :=
  if s.run.state = .draining ∧ s.time.estimate = true ∧ s.track.path = [] then stopAtP .encoderDrained s else s

/-- TREADY is high in STARTING: the start timer stops and the run state becomes RUNNING, or DRAINING with the standby
latch set (R42). -/
def atSpeed (s : State) : State :=
  let s := { s with run := { s.run with timer := none } }
  changeRun (if s.run.standby then .draining else .running) none s

/-- Entry into STARTING: the start timer begins; with TREADY already high STARTING ends in the same event (R41, R42). -/
def enterStarting (s : State) : State :=
  let s := changeRun .starting none s
  let s := { s with run := { s.run with timer := some 0 } }
  if s.pins.tready then atSpeed s else s

/-- In IDLE the start condition is tested (R41). -/
def startStep (s : State) : State :=
  if s.run.state = .idle ∧ s.startCondition = true then enterStarting s else s

/-- The idle wait fires: the run state falls to IDLE (R45). -/
def fallIdle (s : State) : State := changeRun .idle none s

/-- The idle condition is taken up again: the wait is armed when it begins to hold and withdrawn when it ceases; armed
at a position already reached it fires at once (R34, R45). -/
def idleStep (s : State) : State :=
  if s.idleCondition then
    if s.idleArmed then s
    else if s.reached (plus s.time.pos s.cfg.linger) then fallIdle s
    else armEvent .idle (plus s.time.pos s.cfg.linger) s
  else withdraw (fun i => i.kind == .idle) s

/-- The silence count stands at 0 whenever the watch condition does not hold (R50). -/
def silenceStep (s : State) : State :=
  if s.watchCondition then s else { s with time := { s.time with silence := 0 } }

/-! ### The movement of P -/

/-- P reaches the positions of the counts of travel taken in, one after another, and stands at a position as long as
something that falls on it is still to be taken (R21). The number is how many counts may be reached. -/
def runOwed : Nat → State → State
  | 0, s => s
  | n + 1, s =>
    if s.somethingDue then s
    else runOwed n { s with time := { s.time with pos := s.time.pos + 1, owed := s.time.owed - 1 } }

/-- P moves as far as the counts taken in and the items due allow (R21). -/
def moveP (s : State) : State := runOwed s.time.owed s

/-- Counts of travel are taken in (R21, R53). -/
def travel (k : Nat) (s : State) : State := moveP { s with time := { s.time with owed := s.time.owed + k } }

/-! ### The end of an event -/

/-- The decisions of run-state control and the planner, in the order drain, start, release, stage, idle (DESIGN CHOICE,
log entry 13). They come behind the sheet events of the event, so that a HOLD that one of those fires acts on them
(DESIGN CHOICE, log entry 42). -/
def decideAll (s : State) : State := idleStep (tryStage (tryRelease (startStep (drainStep s))))

/-- The end of an event that changes an input of a decision. -/
def settle (s : State) : State := moveP (silenceStep (decideAll s))

end Sys2Proof.Machine
end

