-- ==== Sys2Proof/Machine/Tracking.lean ====
section
/-! DEFINITION. The path tracker and the imaging gate (05_sheet_tracking_along_the_path.md,
06_imaging_gate_and_sheet_mark.md): met expectations, routing and jog, parking, delivery and the retained store,
sheets that leave the path, the TOP event and the underrun check; and the matching of edges (R31, R32). -/

namespace Sys2Proof.Machine

/-! ### Expiry -/

/-- An edge expectation expires: LATE for an LE, LONG for a TE, dated at its expiry position (R23, R25, R36). -/
def expireItem (it : Item) (s : State) : State :=
  match it.kind with
  | .edge l st e => pathFault (match e with | .le => .late | .te => .long) st it.due l (dropItem it s)
  | _ => s

/-- Arm the LE expectation of a leg; one whose expiry position is already reached expires at once (R35, R77), behind the
sheet event of the edge that armed it (DESIGN CHOICE, log entry 41). -/
def armLegLE (l : Launch) (st : Station) (pos : Pos) (s : State) : State :=
  let s := armLE l st pos s
  match s.expect.items.find? fun i => i.kind == .edge l st .le && s.itemDue i with
  | none => s
  | some it => expireItem it s

/-! ### Leading edges -/

/-- The position on the leg at a distance from the release position (R77); 0 stands in where there is none (log entry
22). -/
def PathEntry.onLeg (e : PathEntry) (d : Nat) : Pos := plus (e.releasePos.getD 0) d

/-- Arm the terminal LE expectation of an entry whose route is decided (R80). -/
def armTerminal (e : PathEntry) (r : Route) (s : State) : State :=
  armLegLE e.launch (terminalOf r) (e.onLeg (terminalDistance s.cfg r)) s

/-- The tracker's part of a met LE (R76, R77, R80, R82), with the TE expectation that the expectation unit arms (R25). -/
def trackLE (e : PathEntry) (st : Station) (q : Pos) (s : State) : State :=
  match st with
  | .feed1 | .feed2 | .feed3 | .feed4 | .loopout => s
  | .reg =>
    if e.phase = .feeding ∨ e.phase = .refeeding then updEntry e.launch (fun x => { x with phase := .atGate }) s else s
  | .xfer => armLegLE e.launch .fuse (e.onLeg s.cfg.dF) s
  | .fuse =>
    let s := updEntry e.launch (fun x => { x with fuseReached := true }) s
    let s := armTE e.launch .fuse (plus q e.ident.length) s
    if e.divTaken then
      match e.route with
      | none => s
      | some r => armTerminal e r s
    else s
  | .loopin =>
    armTE e.launch .loopin (plus q e.ident.length) (updEntry e.launch (fun x => { x with phase := .parking }) s)
  | .stka =>
    armTE e.launch .stka (plus q e.ident.length) (updEntry e.launch (fun x => { x with phase := .exiting }) s)
  | .stkb =>
    armTE e.launch .stkb (plus q e.ident.length) (updEntry e.launch (fun x => { x with phase := .exiting }) s)
  | .purge =>
    armTE e.launch .purge (plus q e.ident.length) (updEntry e.launch (fun x => { x with phase := .exiting }) s)

/-- An LE expectation of an entry is met on time: the sheet event, then the tracker (R96). Two choices of the model lie in
this order. Where the tracker arms an LE that expires at once (R35, R77), the history entry, the WATCH_HIT and the action
of the LE event stand ahead of the stop's STATE and FAULT (DESIGN CHOICE, log entry 41). A HOLD fired by the REG LE event is
taken ahead of the release that the same event would bring, which it holds back (R72; DESIGN CHOICE, log entry 42). -/
def metLE (e : PathEntry) (st : Station) (q : Pos) (s : State) : State :=
  trackLE e st q (sheetEvent .le .le (some st) e q s)

/-! ### Delivery -/

/-- The stacker piece record after a delivery, before a last sheet empties it (R87). -/
def pieceAfter (r : Option StackerPiece) (x : LogicalSheet) (serial : Serial) : StackerPiece :=
  let fresh : StackerPiece :=
    { piece := x.piece, count := 1, firstSerial := serial, lastSerial := serial, committed := false }
  match r with
  | none => fresh
  | some p =>
    if x.index = 1 ∨ p.piece ≠ x.piece then fresh else { p with count := p.count + 1, lastSerial := serial }

/-- What a delivery does with the logical sheet: disposition, released count, the sequences whose lock table entries
go, the retained store and the committed flag after it (R88, R90, R91, R92). -/
structure Disposal where
  disposition : Disposition
  released : Nat
  unlocked : List Seq
  store : List LogicalSheet
  committed : Bool
  deriving DecidableEq, Repr

/-- The disposal of a delivered sheet, with the stacker piece record's committed flag (R88, R90, R91, R92). -/
def disposal (mode : RecoveryMode) (committed : Bool) (store : List LogicalSheet) (x : LogicalSheet) : Disposal :=
  match mode with
  | .sheet =>
    { disposition := .released, released := 1, unlocked := [x.seq], store := store, committed := committed }
  | .piece =>
    if x.last then
      { disposition := .pieceComplete, released := store.length + 1
        unlocked := store.map LogicalSheet.seq ++ [x.seq], store := [], committed := committed }
    else if committed then
      { disposition := .committed, released := 1, unlocked := [x.seq], store := store, committed := true }
    else if store.length ≤ 31 then
      { disposition := .retained, released := 0, unlocked := [], store := store ++ [x], committed := false }
    else
      { disposition := .committed, released := store.length + 1
        unlocked := store.map LogicalSheet.seq ++ [x.seq], store := [], committed := true }

/-- The retained tally after a delivery (R86). -/
def tallyAfter (t : Tally) (x : LogicalSheet) (serial : Serial) : Tally :=
  { t with
    delivered := t.delivered + 1, lastSerial := serial, lastPiece := if x.last then x.piece else t.lastPiece }

/-- The delivery of an attached entry with its logical sheet at a stacker (R84). -/
def deliver (e : PathEntry) (x : LogicalSheet) (k : Stacker) (q : Pos) (s : State) : State :=
  let serial := e.serial.getD 0
  let p := pieceAfter s.track.piece x serial
  let d := disposal s.cfg.recovery p.committed s.track.store x
  let s := { s with tally := tallyAfter s.tally x serial }
  let s :=
    { s with
      track :=
        { s.track with
          piece := if x.last then none else some { p with committed := d.committed }
          store := d.store } }
  let s := unlock d.unlocked s
  let s := handRecord
    (.sheetDone
      { seq := x.seq, piece := x.piece, index := x.index, last := x.last, tag := x.tag, serial := e.serial
        launch := e.launch, output := k, pos := q, disposition := d.disposition, released := d.released }) s
  sheetEvent .deliver (.deliver d.disposition) (some (stackerStation k)) e q (leavePath e s)

/-- A detached entry leaves the path at an exit (R93, R94). -/
def spoiledExit (e : PathEntry) (st : Station) (q : Pos) (s : State) : State :=
  leavePath e (reportSpoiled e (e.reason.getD .cancelled) (some st) q s)

/-- An entry's trailing edge clears a stacker's exit sensor (R84, R94). -/
def exitStacker (e : PathEntry) (k : Stacker) (q : Pos) (s : State) : State :=
  match e.sheet with
  | some x => deliver e x k q s
  | none => spoiledExit e (stackerStation k) q s

/-! ### Trailing edges and parking -/

/-- The entry is PARKED (R81). -/
def parkEntry (l : Launch) (s : State) : State := updEntry l (fun x => { x with phase := .parked }) s

/-- The PARK event is armed; at a position already reached it fires at once (R34, R81). -/
def armPark (l : Launch) (pos : Pos) (s : State) : State :=
  if s.reached pos then parkEntry l s else armEvent (.park l) pos s

/-- The tracker's part of a met TE (R77, R81, R83, R84, R93, R94). -/
def trackTE (e : PathEntry) (st : Station) (q : Pos) (s : State) : State :=
  match st with
  | .loopin => if e.phase = .parking then armPark e.launch (plus q s.cfg.dSettle) s else s
  | .loopout => leaveLoop e.launch e.ident.length s
  | .stka => exitStacker e .a q s
  | .stkb => exitStacker e .b q s
  | .purge => if e.attached then s else spoiledExit e .purge q s
  | .feed1 | .feed2 | .feed3 | .feed4 | .reg | .xfer | .fuse => s

/-- A TE expectation of an entry is met on time: the sheet event, then the tracker (R96), so that a WATCH_HIT of the TE event
stands ahead of the edge's SHEET_DONE or SHEET_SPOILED (DESIGN CHOICE, log entry 35). -/
def metTE (e : PathEntry) (st : Station) (q : Pos) (s : State) : State :=
  trackTE e st q (sheetEvent .te .te (some st) e q s)

/-! ### Matching edges -/

/-- What becomes of an edge stamped `q` that goes to the expectation `it`: met on time, before the window, or after it
(R23, R25, R26). -/
inductive EdgeOutcome where
  | met | tooEarly | expired
  deriving DecidableEq, Repr

/-- The evaluation of a matched edge; in estimate mode the early check is suppressed (R23, R26). An edge beyond the
window finds its expectation expired (DEDUCED, log entry 18). -/
def evaluate (estimate : Bool) (it : Item) (q : Pos) : EdgeOutcome :=
  if it.inWindow q then .met
  else if before q it.opens then (if estimate then .met else .tooEarly)
  else .expired

/-- An LE or TE edge goes to a claimant of an entry (R31, R32). -/
def matchEdge (e : Edge) (st : Station) (it : Item) (x : PathEntry) (q : Pos) (s : State) : State :=
  match evaluate s.time.estimate it q with
  | .met =>
    match e with
    | .le => metLE x st q (dropItem it s)
    | .te => metTE x st q (dropItem it s)
  | .tooEarly => pathFault (match e with | .le => .early | .te => .short) st q x.launch s
  | .expired => expireItem it s

/-- A completed edge at a station (R30, R31, R32): matched in RUNNING and DRAINING, discarded in any other run state. -/
def offerEdge (e : Edge) (st : Station) (q : Pos) (s : State) : State :=
  if s.moving then
    match firstClaimant (s.expect.items.filter (Item.awaits st e)) with
    | none =>
      match e with
      | .le => stop .stray (some st) q none none s
      | .te => s
    | some it =>
      match it.kind.launch?.bind s.entry? with
      | none => dropItem it s
      | some x => matchEdge e st it x q s
  else s

/-! ### The diverter -/

/-- The route that a DIV event decides (R78). -/
def routeOf (e : PathEntry) : Route :=
  match e.sheet with
  | none => .purge
  | some x => if e.leg = .first ∧ x.plex = .duplex then .loop else routeTo x.output

/-- The jog line of a stacker changes its level when the route takes an attached index-1 entry to it (R79). -/
def jog (e : PathEntry) (r : Route) (s : State) : State :=
  if s.cfg.jogEnable && e.attached && e.ident.index == 1 then
    match r with
    | .stka => { s with track := { s.track with jogA := !s.track.jogA } }
    | .stkb => { s with track := { s.track with jogB := !s.track.jogB } }
    | _ => s
  else s

/-- The DIV event of an entry (R78, R79, R80). -/
def divert (e : PathEntry) (s : State) : State :=
  let r := routeOf e
  let s := updEntry e.launch (fun x => { x with route := some r, divTaken := true }) s
  let s := jog e r { s with track := { s.track with divsel := r } }
  if e.fuseReached then armTerminal e r s else s

/-! ### Imaging -/

/-- The side that a TOP event images: the front on the FIRST leg, the back on the SECOND (R99). -/
def sideOf (e : PathEntry) : Option (Side × SideRec) :=
  match e.sheet with
  | none => none
  | some x =>
    match e.leg with
    | .first => some (.front, x.front)
    | .second => x.back.map fun b => (.back, b)

/-- The mark of a side: present when the mark is enabled and the side record carries a mark offset (R101, R106). -/
def markOf (c : Setup) (e : PathEntry) (side : Side) (r : SideRec) : Option Mark :=
  match r.mark with
  | none => none
  | some m =>
    if c.markEnable then
      some { offset := m, bytes := expandMark (markValue (e.serial.getD 0) e.ident.index e.ident.last side) }
    else none

/-- The TOP event of an entry, dated by its own position (R34, R101). -/
def topEvent (e : PathEntry) (side : Side) (r : SideRec) (pos : Pos) (s : State) : State :=
  let c : CurrentSide :=
    { launch := e.launch, side := side, base := r.base, len := r.len, stride := r.stride, mark := markOf s.cfg e side r
      topPos := pos, progress := 0 }
  let s :=
    { s with image := { current := some c, port := { base := r.base, len := r.len, stride := r.stride } } }
  let s := emit .top s
  let s := armEvent (.check e.launch) (plus (plus pos r.image) s.cfg.margin) s
  sheetEvent .top (.top side) none e pos s

/-- The underrun check of the current side (R104). -/
def checkSide (e : PathEntry) (c : CurrentSide) (pos : Pos) (s : State) : State :=
  let s := { s with image := { s.image with current := none } }
  if c.progress < c.len then underrun e c.side pos s else s

/-! ### Reads of the imager -/

/-- The mark position of the raster offset `o`, if it lies in the mark area (R106, R109). -/
def markPosition (lines stride offset o : Nat) : Option Nat :=
  ((List.range lines).find? fun k => decide (offset + k * stride ≤ o) && decide (o < offset + k * stride + 16)).map
    fun k => o - (offset + k * stride)

/-- One byte of an imager's read at the address `a`: the mark byte inside the mark area, memory's byte outside (R109). -/
def markByte (lines : Nat) (c : CurrentSide) (a : Nat) (b : Byte) : Byte :=
  match c.mark with
  | none => b
  | some m =>
    if a < c.base then b
    else
      match markPosition lines c.stride m.offset (a - c.base) with
      | none => b
      | some j => m.bytes.getD j b

/-- The data of an imager's read with the mark in place (R109). -/
def substitute (lines : Nat) (c : CurrentSide) : Nat → List Byte → List Byte
  | _, [] => []
  | a, b :: bs => markByte lines c a b :: substitute lines c (a + 1) bs

/-- The progress after a read that memory completed OK: the greater of progress and the read's end offset, when it
overlaps the current side's extent (R103). -/
def progressAfter (c : CurrentSide) (addr len : Nat) : Nat :=
  if overlaps addr len c.base c.len then max c.progress (min (addr + len) (c.base + c.len) - c.base) else c.progress

end Sys2Proof.Machine
end

