-- ==== Sys2Proof/Machine/BusCommands.lean ====
section
/-! DEFINITION. The pass-through unit's commands (08_pass_through_and_access_policy.md): accesses taken at the board bus
port, the grant of the memory port, and the completions of forwarded accesses with the notices they give (R140). -/

namespace Sys2Proof.Machine

/-! ### Judging writes -/

/-- The cell of a policy row for a class (R133). -/
def PolicyCells.cell (p : PolicyCells) : InitClass → PolicyOutcome
  | .processor => p.processor
  | .channel => p.channel
  | .imager => p.imager
  | .other => p.other

/-- A write overlaps the extent of an entry of the lock table (R134). -/
def State.hitsLock (s : State) (a : Access) : Bool :=
  s.pass.locks.any fun k => overlaps a.addr a.len k.base k.len

/-- A write overlaps the report ring or the head word (R135). -/
def State.hitsReport (s : State) (a : Access) : Bool :=
  overlaps a.addr a.len s.cfg.reportBase (32 * s.cfg.reportSlots) || overlaps a.addr a.len s.cfg.controlBase 8

/-- A write overlaps the slot in hand (R136). -/
def State.hitsInflight (s : State) (a : Access) : Bool :=
  match s.fetch.inHand with
  | none => false
  | some i => overlaps a.addr a.len (s.cfg.orderBase + 64 * i) 64

/-- The row that a write falls under and the outcome of its cell; no row and PASS when it overlaps none, and in UNSET
(R133). -/
def State.judge (s : State) (a : Access) (cls : InitClass) : Option PolicyRow × PolicyOutcome :=
  if !s.isSet then (none, .pass)
  else if s.hitsLock a then (some .lockedRaster, s.cfg.lockedRaster.cell cls)
  else if s.hitsReport a then (some .reportArea, s.cfg.reportArea.cell cls)
  else if s.hitsInflight a then (some .orderInflight, s.cfg.orderInflight.cell cls)
  else (none, .pass)

/-! ### Taking an access -/

/-- The policy outcome that the watch units see for an access whose bytes leave one 64-byte block: PASS in UNSET, free
otherwise (R170, log entry 1). -/
def State.crossingOutcome (s : State) (a : Access) : PolicyOutcome :=
  if s.isSet then Config.crossingOutcome a.addr a.len a.write else .pass

/-- The access is offered to the BUS watch units in the event in which it is taken (R137, R167). -/
def offerAccess (a : Access) (outcome : PolicyOutcome) (s : State) : State :=
  offer
    (.bus
      { addr := a.addr, len := a.len, write := a.write, tag := a.tag, cls := s.classOf a.tag, outcome := outcome }) s

/-- The access joins the forward queue (R131). -/
def forward (f : Forwarded) (s : State) : State := { s with pass := { s.pass with fwd := s.pass.fwd ++ [f] } }

/-- The POLICY record of a write that is dropped or refused (R138). -/
def recordPolicy (row : Option PolicyRow) (outcome : PolicyOutcome) (f : Forwarded) (s : State) : State :=
  match row, outcome with
  | some r, .drop => handPolicy r .drop f none none s
  | some r, .error => handPolicy r .error f none none s
  | _, _ => s

/-- What happens at the port to a judged write (R137). -/
def portOutcome (outcome : PolicyOutcome) (f : Forwarded) (s : State) : State :=
  match outcome with
  | .pass => forward f s
  | .drop => emit (.busDone f.access.tag true []) s
  | .error => emit (.busDone f.access.tag false []) s

/-- An access is taken at the board bus port (R131): judged if it is a write, with its POLICY record, then offered to
the watch units, a read with the outcome PASS (DEDUCED, log entry 17), then forwarded or completed. -/
def takeAccess (a : Access) (s : State) : State :=
  let f : Forwarded := { access := a, cls := s.classOf a.tag }
  if a.leavesBlock then emit (.busDone a.tag false []) (offerAccess a (s.crossingOutcome a) s)
  else
    let j := if a.write then s.judge a f.cls else (none, .pass)
    portOutcome j.2 f (offerAccess a j.2 (recordPolicy j.1 j.2 f s))

/-- An access at the board bus port: taken while the forward queue has room; otherwise its initiator waits and the
access is not taken (R131, log entry 5). -/
def atPort (a : Access) (s : State) : State :=
  if s.fwdRoom then takeAccess a (begin s) else emit (.busWaits a.tag) (begin s)

/-- A write access from the command's operands. -/
def writeAccess (addr : Addr) (data : List Byte) (tag : BitVec 3) : Access :=
  { addr := addr.toNat, len := data.length, write := true, data := data, tag := tag }

/-- A read access from the command's operands. -/
def readAccess (addr : Addr) (len : Nat) (tag : BitVec 3) : Access :=
  { addr := addr.toNat, len := len, write := false, data := [], tag := tag }

/-- BOARD_BUS_WRITE (R131, R133 to R138). -/
def execBoardBusWrite (addr : Addr) (data : List Byte) (tag : BitVec 3) (s : State) : Host.Outcome State Fault Refusal :=
  .next (atPort (writeAccess addr data tag) s)

/-- BOARD_BUS_READ (R131). -/
def execBoardBusRead (addr : Addr) (len : Nat) (tag : BitVec 3) (s : State) : Host.Outcome State Fault Refusal :=
  .next (atPort (readAccess addr len tag) s)

/-! ### The arbiter -/

/-- The grant of the memory port to the head of the forward queue or of the own-access FIFO by the wait count (R142). -/
def grant (s : State) : State :=
  match s.pass.fwd, s.pass.own with
  | [], [] => s
  | f :: fs, [] => { s with pass := { s.pass with fwd := fs, granted := some (.forwarded f), wait := 0 } }
  | [], a :: as => { s with pass := { s.pass with own := as, granted := some (.own a), wait := 0 } }
  | f :: fs, a :: as =>
    if s.pass.wait < 4 then
      { s with pass := { s.pass with fwd := fs, granted := some (.forwarded f), wait := s.pass.wait + 1 } }
    else { s with pass := { s.pass with own := as, granted := some (.own a), wait := 0 } }

/-- MEMORY_PORT_GRANT (R142): the memory port can take an access when it carries none. -/
def execMemoryPortGrant (s : State) : Host.Outcome State Fault Refusal :=
  .next (if s.pass.granted = none then grant (begin s) else s)

/-! ### Notices of a completed write -/

/-- The slot whose byte 56 the write covers with the value 1, once a setup is in force (R1). -/
def State.postOf (s : State) (a : Access) : Option Nat :=
  let i := (a.addr - s.cfg.orderBase) / 64
  let x := s.cfg.orderBase + 64 * i + 56
  if s.isSet && a.write && decide (s.cfg.orderBase ≤ a.addr) && decide (i < s.cfg.orderSlots) && a.covers x &&
      a.byteFor x == 1 then some i
  else none

/-- The write is a commit write: it covers byte 0xFF8 of the setup block with the value 1 (R146). -/
def State.isCommit (s : State) (a : Access) : Bool :=
  a.write && a.covers (s.setupBase + 0xFF8) && a.byteFor (s.setupBase + 0xFF8) == 1

/-- The write covers some of the bytes 8 to 11 of the control block, once a setup is in force (R139). -/
def State.touchesTail (s : State) (a : Access) : Bool :=
  s.isSet && a.write && overlaps a.addr a.len (s.cfg.controlBase + 8) 4

/-- An index joins the posted-slot map, kept ascending and without repeats (R1). -/
def insertSlot (i : Nat) : List Nat → List Nat
  | [] => [i]
  | j :: js => if i < j then i :: j :: js else if i = j then j :: js else j :: insertSlot i js

/-- A post of a slot: its index joins the map, and a post of the deferred slot clears its mark (R1, R13). A post of the
slot in hand that completes between the handling, which took the index out, and the end of the writeback joins the map
again (DESIGN CHOICE, log entry 31). -/
def notePost (i : Nat) (s : State) : State :=
  { s with
    fetch :=
      { s.fetch with
        posted := insertSlot i s.fetch.posted
        deferred := s.fetch.deferred && s.fetch.next != i } }

/-- Setup control hands over its next read (R147). -/
def pushSetupRead (s : State) : State :=
  pushOwn { kind := .setupRead s.setup.issued, addr := s.setupBase + 64 * s.setup.issued, len := 64, data := [] }
    { s with setup := { s.setup with issued := s.setup.issued + 1 } }

/-- Setup control hands over reads as room allows, at most `n` (R141, R147). -/
def fillSetupReads : Nat → State → State
  | 0, s => s
  | n + 1, s => if s.ownRoom && decide (s.setup.issued < 64) then fillSetupReads n (pushSetupRead s) else s

/-- A fetch begins (R146, R147). -/
def beginFetch (s : State) : State :=
  fillSetupReads 16
    { s with setup := { s.setup with fetch := .fetching, issued := 0, done := 0, failed := false, copy := [] } }

/-- Setup control's answer to a commit write (R146). -/
def noteCommit (s : State) : State :=
  if s.setup.fetch = .idle ∧ (s.run.state = .unset ∨ s.run.state = .idle) then beginFetch s
  else handRefusal .busy 0 s

/-- The value that a write carries in the bytes 8 to 11 of the control block. -/
def tailValue (s : State) (a : Access) : Nat := leAt a.data (s.cfg.controlBase + 8 - a.addr) 4

/-- The write covers all four bytes of the tail value (R139). -/
def State.wholeTail (s : State) (a : Access) : Bool :=
  a.covers (s.cfg.controlBase + 8) && a.covers (s.cfg.controlBase + 11)

/-- The distance in ring order from `a` to `b` in a ring of `n` slots. -/
def ringDistance (n a b : Nat) : Nat := (b + n - a) % n

/-- The tail check of a completed write to the tail value (R139): an acceptable value becomes the tail view (R161). A write of
part of the value is recorded here too, when it completes OK (DESIGN CHOICE, log entry 37), and a value that fails both
tests is named RANGE (DESIGN CHOICE, log entry 38). -/
def noteTail (f : Forwarded) (s : State) : State :=
  let n := s.cfg.reportSlots
  let v := tailValue s f.access
  if !s.wholeTail f.access then handPolicy .tailValue .partialWrite f none (some s.report.tail) s
  else if n ≤ v then handPolicy .tailValue .range f (some v) (some s.report.tail) s
  else if ringDistance n s.report.tail s.report.visible < ringDistance n s.report.tail v then
    handPolicy .tailValue .order f (some v) (some s.report.tail) s
  else { s with report := { s.report with tail := v } }

/-- A forwarded write completes OK: the notices that apply, then its completion (R131, R140; DESIGN CHOICE, log entry
10). -/
def completeWrite (f : Forwarded) (s : State) : State :=
  let post := s.postOf f.access
  let commit := s.isCommit f.access
  let tail := s.touchesTail f.access
  let s := match post with
    | none => s
    | some i => notePost i s
  let s := if commit then noteCommit s else s
  let s := if tail then noteTail f s else s
  emit (.busDone f.access.tag true []) s

/-- The write that the memory port carries, if it is a forwarded write. -/
def State.grantedWrite (s : State) : Option Forwarded :=
  match s.grantedForward with
  | none => none
  | some f => if f.access.write then some f else none

/-- The read that the memory port carries, if it is a forwarded read. -/
def State.grantedRead (s : State) : Option Forwarded :=
  match s.grantedForward with
  | none => none
  | some f => if f.access.write then none else some f

/-- ORDER_POST (R1): the granted write is a post and completes OK. -/
def execOrderPost (s : State) : Host.Outcome State Fault Refusal :=
  .next (match s.grantedWrite with
    | none => s
    | some f => if (s.postOf f.access).isSome then completeWrite f (freePort (begin s)) else s)

/-- COMMIT_WRITE (R146): the granted write is a commit write and completes OK. -/
def execCommitWrite (s : State) : Host.Outcome State Fault Refusal :=
  .next (match s.grantedWrite with
    | none => s
    | some f => if s.isCommit f.access then completeWrite f (freePort (begin s)) else s)

/-- TAIL_WRITE (R139): the granted write touches the tail value and completes OK. -/
def execTailWrite (s : State) : Host.Outcome State Fault Refusal :=
  .next (match s.grantedWrite with
    | none => s
    | some f => if s.touchesTail f.access then completeWrite f (freePort (begin s)) else s)

/-- FORWARDED_WRITE_COMPLETE (R131): the granted write completes; an OK gives the notices that apply to it (R140). -/
def execForwardedWriteComplete (ok : Bool) (s : State) : Host.Outcome State Fault Refusal :=
  .next (match s.grantedWrite with
    | none => s
    | some f =>
      if ok then completeWrite f (freePort (begin s))
      else emit (.busDone f.access.tag false []) (freePort (begin s)))

/-- A forwarded read completes OK: the imager's progress, the mark, and the data returned (R103, R109, R131). -/
def completeRead (f : Forwarded) (data : List Byte) (s : State) : State :=
  match s.image.current with
  | none => emit (.busDone f.access.tag true data) s
  | some c =>
    if f.cls = .imager then
      emit (.busDone f.access.tag true (substitute s.cfg.markLines c f.access.addr data))
        { s with image := { s.image with current := some { c with progress := progressAfter c f.access.addr f.access.len } } }
    else emit (.busDone f.access.tag true data) s

/-- FORWARDED_READ_COMPLETE (R103): the granted read completes, OK with as many bytes as it asked for, or ERROR. -/
def execForwardedReadComplete (ok : Bool) (data : List Byte) (s : State) : Host.Outcome State Fault Refusal :=
  .next (match s.grantedRead with
    | none => s
    | some f =>
      if ok then (if data.length = f.access.len then completeRead f data (freePort (begin s)) else s)
      else emit (.busDone f.access.tag false []) (freePort (begin s)))

end Sys2Proof.Machine
end

