-- ==== Sys2Proof/Machine/OrderCommands.lean ====
section
/-! DEFINITION. The order fetcher's commands: the slot read (R2), the stale post (R4), the unknown kind (R7) and the
nine kinds of orders with the work of their owning blocks (R14, R18). -/

namespace Sys2Proof.Machine

/-! ### The slot read -/

/-- The address of a slot of the order ring. -/
def State.slotAddr (s : State) (i : Nat) : Nat := s.cfg.orderBase + 64 * i

/-- The next slot may be read as far as the deferred mark decides it (R2, R13). -/
def State.deferralAllows (s : State) : Bool := !s.fetch.deferred || !s.defers

/-- The conditions of R2, and room in the own-access FIFO (R141). -/
def State.mayFetch (s : State) : Bool :=
  s.isSet && s.fetch.posted.contains s.fetch.next && s.fetch.inHand.isNone && s.throttleOpen &&
    s.setup.fetch == .idle && s.deferralAllows && s.ownRoom

/-- The read of the next slot is issued and the slot becomes the slot in hand (R2). -/
def issueSlotRead (s : State) : State :=
  pushOwn { kind := .slotRead, addr := s.slotAddr s.fetch.next, len := 64, data := [] }
    { s with fetch := { s.fetch with inHand := some s.fetch.next } }

/-- SLOT_READ_ISSUE (R2). -/
def execSlotReadIssue (s : State) : Host.Outcome State Fault Refusal :=
  .next (if s.mayFetch then issueSlotRead (begin s) else s)

/-- A slot read is the access that the memory port carries, and its slot is in hand (R5). -/
def State.slotReturns (s : State) : Bool :=
  s.isSet && s.fetch.inHand.isSome &&
    (match s.grantedOwn with | none => false | some a => a.kind == .slotRead)

/-- The index of the slot in hand; 0 stands in where there is none (log entry 22). -/
def State.slotIndex (s : State) : Nat := s.fetch.inHand.getD 0

/-! ### Finishing a slot -/

/-- The record of a finished order joins the outbound queue (R5, step 3). -/
def handOption (r : Option Record) (s : State) : State :=
  match r with
  | none => s
  | some r => handRecord r s

/-- Finish the slot in hand (R5): the writeback of the post word joins the own-access FIFO, the index leaves the map
and the next slot advances, the record is handed over; then the implied cancel of R12. -/
def finishNow (f : Finish) (s : State) : State :=
  let i := s.slotIndex
  let s := pushOwn { kind := .postWrite, addr := s.slotAddr i + 56, len := 8, data := f.post } s
  let s :=
    { s with
      fetch :=
        { s.fetch with
          posted := s.fetch.posted.erase i, next := (i + 1) % s.cfg.orderSlots, deferred := false, finish := none } }
  let s := handOption f.record s
  if f.cancelOpen then impliedCancel s else s

/-- Finish the slot now, or wait for room in the own-access FIFO (R5, R141; DESIGN CHOICE, log entry 11). -/
def finishSlot (f : Finish) (s : State) : State :=
  if s.ownRoom then finishNow f s else { s with fetch := { s.fetch with finish := some f } }

/-- Reject the order (R5, R7): a rejected SHEET order cancels the open piece (R12). -/
def rejectOrder (reason : RejectReason) (slot : List Byte) (s : State) : State :=
  finishSlot
    { post := postRejected reason
      record := some (.orderRejected
        { slot := s.slotIndex, kind := slot.getD 0 0, reason := reason
          sheet := if slotKind slot = 1 then some (sheetPiece slot, sheetIndex slot, sheetTag slot) else none })
      cancelOpen := slotKind slot == 1 } s

/-- Finish a control order with its result (R5, R18). -/
def answerControl (slot : List Byte) (r : ControlResult) (s : State) : State :=
  finishSlot
    { post := postControl r
      record := some (.controlDone { slot := s.slotIndex, kind := slot.getD 0 0, result := r })
      cancelOpen := false } s

/-- Run-state control takes up its conditions again, so that the STATE record of an order's change is handed over
before its CONTROL_DONE (R47, R48, R49; DEDUCED, log entry 14). -/
def decideRun (s : State) : State := idleStep (startStep (drainStep s))

/-- A control order: judged by enable, reserved fields and field values (R7), then dispatched to its owning block and
answered (R18). -/
def controlOrder (wellFormed : Bool) (work : State → State × ControlResult) (slot : List Byte) (s : State) : State :=
  if !kindEnabled s.cfg (slotKind slot) then rejectOrder .kindDisabled slot s
  else if !wellFormed then rejectOrder .field slot s
  else
    let r := work s
    answerControl slot r.2 (decideRun r.1)

/-- An order of kind `k` has returned from its slot: `body` is its handling; otherwise the command does not occur. -/
def onOrder (k : Nat) (slot : List Byte) (body : State → State) (s : State) : State :=
  if s.slotReturns && slotPosted slot && slotKind slot == k then settle (body (freePort (begin s))) else s

/-! ### Stale posts and unknown kinds -/

/-- A stale post: the index leaves the map, the slot in hand ends and the deferred mark is cleared (R4). -/
def dropStale (s : State) : State :=
  { s with
    fetch := { s.fetch with posted := s.fetch.posted.erase s.slotIndex, inHand := none, deferred := false } }

/-- STALE_POST (R4). -/
def execStalePost (slot : List Byte) (s : State) : Host.Outcome State Fault Refusal :=
  .next (if s.slotReturns && !slotPosted slot then dropStale (freePort (begin s)) else s)

/-- KIND_UNKNOWN (R7, step 1). -/
def execKindUnknown (slot : List Byte) (s : State) : Host.Outcome State Fault Refusal :=
  .next (if s.slotReturns && slotPosted slot && !kindKnown (slotKind slot) then
      settle (rejectOrder .kindUnknown slot (freePort (begin s)))
    else s)

/-! ### SHEET -/

/-- The order is put back: the slot in hand ends and the slot is marked deferred (R13). -/
def deferSheet (s : State) : State := { s with fetch := { s.fetch with inHand := none, deferred := true } }

/-- The open piece record after an accepted sheet (R11). -/
def openPieceAfter (gateDepth : Nat) (o : Option OpenPiece) (x : LogicalSheet) : Option OpenPiece :=
  if x.last then none
  else if x.index = 1 then
    some
      { piece := x.piece, lastIndex := 1, count := 1, output := x.output, firstSeq := x.seq
        eligible := gateDepth == 1 }
  else
    o.map fun p =>
      { p with
        lastIndex := p.lastIndex + 1, count := p.count + 1
        eligible := p.eligible || decide (gateDepth ≤ p.count + 1) }

/-- The acceptance of a SHEET order (R14, steps 1 to 5). -/
def acceptSheet (slot : List Byte) (s : State) : State :=
  let x := parseSheet s.fetch.counter slot
  { s with
    fetch :=
      { s.fetch with
        counter := s.fetch.counter + 1
        schedule := s.fetch.schedule ++ [x]
        openPiece := openPieceAfter s.cfg.gateDepth s.fetch.openPiece x }
    pass := { s.pass with locks := s.pass.locks ++ locksOf x } }

/-- The handling of a SHEET order (R7, R13, R14). -/
def handleSheet (slot : List Byte) (s : State) : State :=
  if s.defers then deferSheet s
  else
    match judgeSheet s.setup.base s.cfg s.fetch.openPiece slot with
    | some r => rejectOrder r slot s
    | none =>
      finishSlot { post := postSheet s.fetch.counter, record := none, cancelOpen := false } (acceptSheet slot s)

/-- SHEET (R14). -/
def execSheet (slot : List Byte) (s : State) : Host.Outcome State Fault Refusal :=
  .next (onOrder 1 slot (handleSheet slot) s)

/-! ### Latches -/

/-- HOLD sets the hold latch (R46). -/
def holdWork (s : State) : State × ControlResult := ({ s with run := { s.run with hold := true } }, .ok)

/-- HOLD (R46). -/
def execHold (slot : List Byte) (s : State) : Host.Outcome State Fault Refusal :=
  .next (onOrder 2 slot (controlOrder (bareReservedOk slot) holdWork slot) s)

/-- RESUME clears both latches; DRAINING with estimate mode off becomes RUNNING (R48). -/
def resumeWork (s : State) : State × ControlResult :=
  let s := { s with run := { s.run with hold := false, standby := false } }
  (if s.run.state = .draining ∧ s.time.estimate = false then changeRun .running none s else s, .ok)

/-- RESUME (R48). -/
def execResume (slot : List Byte) (s : State) : Host.Outcome State Fault Refusal :=
  .next (onOrder 3 slot (controlOrder (bareReservedOk slot) resumeWork slot) s)

/-- STANDBY sets the standby latch; RUNNING becomes DRAINING (R47). -/
def standbyWork (s : State) : State × ControlResult :=
  let s := { s with run := { s.run with standby := true } }
  (if s.run.state = .running then changeRun .draining none s else s, .ok)

/-- STANDBY (R47). -/
def execStandby (slot : List Byte) (s : State) : Host.Outcome State Fault Refusal :=
  .next (onOrder 4 slot (controlOrder (bareReservedOk slot) standbyWork slot) s)

/-! ### CLEARED -/

/-- The line of a station is stable low with no pending change, or the station is absent (R49, step 3). -/
def State.stationClear (s : State) (st : Station) : Bool :=
  !(s.cfg.station st).present ||
    if h : (s.cfg.station st).line < 16 then
      !(s.expect.lines[(s.cfg.station st).line]).stable && (s.expect.lines[(s.cfg.station st).line]).change.isNone
    else true

/-- CLEARED is judged by run-state control and, if accepted, clears the path and returns to IDLE (R49, R128). -/
def clearedWork (s : State) : State × ControlResult :=
  if s.run.state ≠ .stopped then (s, .notStopped)
  else if !s.pins.cover then (s, .pathNotClear)
  else if !allStations.all s.stationClear then (s, .pathNotClear)
  else
    let s := changeRun .idle none (leaveEstimate (clearPath s))
    (appendHist .cleared none none none none s.time.pos s, .ok)

/-- CLEARED (R49). -/
def execCleared (slot : List Byte) (s : State) : Host.Outcome State Fault Refusal :=
  .next (onOrder 5 slot (controlOrder (bareReservedOk slot) clearedWork slot) s)

/-! ### CANCEL -/

/-- The open piece record with this id closes when a CANCEL is answered (R19). -/
def closeOpen (p : PieceId) (s : State) : State :=
  match s.fetch.openPiece with
  | none => s
  | some o => if o.piece = p then { s with fetch := { s.fetch with openPiece := none } } else s

/-- CANCEL gives up a piece (R123). -/
def cancelWork (p : PieceId) (s : State) : State × ControlResult :=
  if s.pieceKnown p then (closeOpen p (cancelPiece p s), .ok) else (closeOpen p s, .noPiece)

/-- CANCEL (R123). -/
def execCancel (slot : List Byte) (s : State) : Host.Outcome State Fault Refusal :=
  .next (onOrder 6 slot (controlOrder (cancelReservedOk slot) (cancelWork (cancelPieceId slot)) slot) s)

/-! ### WATCH -/

/-- A watch unit disabled: DISARMED with no program; remaining count and pending hit are kept (R166). -/
def WatchUnit.disabled (w : WatchUnit) : WatchUnit := { w with program := none, state := .disarmed }

/-- A watch unit with a new program (R166). -/
def WatchUnit.programmed (p : WatchProgram) (w : WatchUnit) : WatchUnit :=
  { w with program := some p, remaining := p.count, state := if p.afterW0 then .waiting else .armed }

/-- The watch units' answer to a WATCH order (R166). -/
def watchWork (slot : List Byte) (s : State) : State × ControlResult :=
  let u := watchUnitOf slot
  let w := s.watch.unit u
  if watchDisables slot then (setUnit u w.disabled s, .ok)
  else if w.state = .armed ∨ w.state = .waiting then (s, .unitArmed)
  else (setUnit u (w.programmed (parseWatch slot)) s, .ok)

/-- WATCH (R166). -/
def execWatch (slot : List Byte) (s : State) : Host.Outcome State Fault Refusal :=
  .next (onOrder 7 slot
    (fun t => controlOrder (watchReservedOk slot && watchFieldsOk t.cfg slot) (watchWork slot) slot t) s)

/-! ### DUMP -/

/-- The history hands over its next dump write (R172). -/
def pushDumpWrite (d : Dump) (s : State) : State :=
  pushOwn
    { kind := .dumpWrite d.issued, addr := d.dest + 64 * d.issued, len := 64, data := dumpBytes d.snapshot d.issued }
    { s with history := { s.history with dump := some { d with issued := d.issued + 1 } } }

/-- A dump write may be handed over now: room, none failed, and one left (R141, R172, R173). -/
def State.dumpReady (s : State) (d : Dump) : Bool :=
  s.ownRoom && d.failed.isNone && decide (d.issued < dumpWrites d.snapshot.length)

/-- The history hands over dump writes as room allows, at most `n` (R141, R172). -/
def fillDump : Nat → State → State
  | 0, s => s
  | n + 1, s =>
    match s.history.dump with
    | none => s
    | some d => if s.dumpReady d then fillDump n (pushDumpWrite d s) else s

/-- The entries of the writes before the first failed one (R173). -/
def Dump.written (d : Dump) : Nat :=
  match d.failed with
  | none => d.snapshot.length
  | some k => min d.snapshot.length (4 * k)

/-- The dump ends: the history is unfrozen if the order asked for it and no write failed, DUMP_DONE is handed over and
the reservation ends (R172, R173). -/
def endDump (d : Dump) (s : State) : State :=
  let frozen := s.history.frozen && !(d.unfreeze && d.failed.isNone)
  let s := { s with history := { s.history with dump := none, frozen := frozen } }
  handRecord
    (.dumpDone
      { ok := d.failed.isNone, written := d.written, held := d.held, dest := d.dest, pos := d.pos, frozen := frozen }) s

/-- The dump of a DUMP order: the snapshot is the newest entries of the history (R172). -/
def newDump (slot : List Byte) (s : State) : Dump where
  dest := dumpDest slot
  unfreeze := byteAt slot 5 == 1
  snapshot := newest (min (dumpCapacity slot) s.history.entries.length) s.history.entries
  held := s.history.entries.length
  pos := s.time.pos
  issued := 0
  done := 0
  failed := none

/-- The event history's answer to a DUMP order (R172). Its first writes join the own-access FIFO here, ahead of the
order's own post-word writeback (DESIGN CHOICE, log entry 32). -/
def dumpWork (slot : List Byte) (s : State) : State × ControlResult :=
  if s.history.dump.isSome then (s, .busy)
  else
    let d := newDump slot s
    if d.snapshot.isEmpty then (endDump d s, .ok)
    else (fillDump 8 { s with history := { s.history with dump := some d } }, .ok)

/-- DUMP (R172). -/
def execDump (slot : List Byte) (s : State) : Host.Outcome State Fault Refusal :=
  .next (onOrder 8 slot
    (fun t => controlOrder (dumpReservedOk slot && dumpFieldsOk t.setup.base t.cfg slot) (dumpWork slot) slot t) s)

/-! ### TALLY -/

/-- The retained tally's answer to a TALLY order (R155). -/
def tallyWork (serial : Serial) (s : State) : State × ControlResult :=
  if !s.cfg.tallyEnable then (s, .tallyDisabled)
  else if !s.track.path.isEmpty then (s, .busy)
  else ({ s with tally := { s.tally with nextSerial := serial, valid := true } }, .ok)

/-- TALLY (R155). -/
def execTally (slot : List Byte) (s : State) : Host.Outcome State Fault Refusal :=
  .next (onOrder 9 slot (controlOrder (tallyReservedOk slot) (tallyWork (tallySerial slot)) slot) s)

end Sys2Proof.Machine
end

