-- ==== Sys2Proof/Machine/OwnCommands.lean ====
section
/-! DEFINITION. The commands of the controller's own accesses (08_pass_through_and_access_policy.md, R141 to R143) and
the work of the blocks that issued them: the post-word writeback (R3), the setup fetch and its decision (R147 to R152),
the record and head-word writes (R159, R160, R164) and the dump writes (R172, R173). -/

namespace Sys2Proof.Machine

/-- The access that the memory port carries is an own access of this kind. -/
def State.carries (s : State) (k : OwnKind) : Bool :=
  match s.grantedOwn with
  | none => false
  | some a => a.kind == k

/-! ### Handing over -/

/-- The report unit puts the head-word write of 0 of an acceptance into the own-access FIFO (R151, R156). -/
def pushZeroHead (s : State) : State :=
  pushOwn { kind := .headWrite 0, addr := s.cfg.controlBase, len := 8, data := headBytes 0 }
    { s with report := { s.report with headWaits := false } }

/-- The block that waited for room hands its access over (R141). -/
def handOver (block : OwnBlock) (s : State) : State :=
  match block with
  | .fetcher =>
    match s.fetch.finish with
    | none => s
    | some f => settle (finishNow f (begin s))
  | .setup => if s.setup.fetch = .fetching ∧ s.setup.issued < 64 then pushSetupRead (begin s) else s
  | .report => if s.report.headWaits then pushZeroHead (begin s) else s
  | .history =>
    match s.history.dump with
    | none => s
    | some d => if s.dumpReady d then pushDumpWrite d (begin s) else s

/-- OWN_ACCESS_HANDOVER (R141): a block that waits hands its access over as soon as the FIFO has room. -/
def execOwnAccessHandover (block : OwnBlock) (s : State) : Host.Outcome State Fault Refusal :=
  .next (if s.ownRoom then handOver block s else s)

/-! ### The post-word writeback -/

/-- POST_WORD_WRITEBACK_COMPLETE (R3, R5): the slot is no longer in hand. -/
def execPostWordWritebackComplete (s : State) : Host.Outcome State Fault Refusal :=
  .next (if s.carries .postWrite then
      { freePort (begin s) with fetch := { s.fetch with inHand := none } }
    else s)

/-! ### The setup fetch -/

/-- The access that the memory port carries is a read of the setup fetch. -/
def State.carriesSetupRead (s : State) : Bool :=
  match s.grantedOwn with
  | none => false
  | some a =>
    match a.kind with
    | .setupRead _ => true
    | _ => false

/-- The fetch ends when its 64 reads have completed: DECIDING, or the refusal MEMORY with the copy discarded (R147). -/
def endFetch (s : State) : State :=
  if s.setup.done < 64 then s
  else if s.setup.failed then
    handRefusal .memory 0 { s with setup := { s.setup with fetch := .idle, copy := [] } }
  else { s with setup := { s.setup with fetch := .deciding } }

/-- A read of the fetch has completed with these bytes; a failed read returns none (R147). -/
def noteSetupRead (ok : Bool) (data : List Byte) (s : State) : State :=
  endFetch
    { s with
      setup :=
        { s.setup with
          copy := s.setup.copy ++ [data], done := s.setup.done + 1, failed := s.setup.failed || !ok } }

/-- SETUP_FETCH_READ_COMPLETE (R147): a read of the fetch completes OK with its 64 bytes. -/
def execSetupFetchReadComplete (data : List Byte) (s : State) : Host.Outcome State Fault Refusal :=
  .next (if s.carriesSetupRead && s.setup.fetch == .fetching && data.length == 64 then
      noteSetupRead true data (freePort (begin s))
    else s)

/-! ### The decision -/

/-- The writes of the report unit have drained and no slot is in hand (R148). -/
def State.mayDecide (s : State) : Bool :=
  s.setup.fetch == .deciding && s.report.outstanding.isNone && s.fetch.inHand.isNone

/-- The acceptance conditions of R148, step 1. -/
def State.acceptable (s : State) : Bool :=
  s.run.state == .unset ||
    (s.run.state == .idle && s.fetch.schedule.isEmpty && s.fetch.openPiece.isNone && s.track.store.isEmpty &&
      s.track.path.isEmpty)

/-- The revision in the fetched copy's commit word. -/
def State.copyRevision (s : State) : Byte := byte (copyByte s.setup.copy 0xFF9)

/-- The reason for which the fetched setup is refused, or none (R148 to R150). -/
def State.refusal (s : State) : Option SetupOutcome :=
  if !s.acceptable then some .busy else validate s.setup.base s.setup.copy

/-- A refusal at the decision (R148, R152). -/
def refuseSetup (reason : SetupOutcome) (s : State) : State :=
  let revision := s.copyRevision
  handRefusal reason revision { s with setup := { s.setup with fetch := .idle, copy := [] } }

/-- Setup control puts the fetched setup into force (R151). -/
def enforceSetup (s : State) : State :=
  { s with
    setup :=
      { s.setup with
        inForce := some (parseSetup s.setup.copy), revision := s.copyRevision, fetch := .idle, copy := [] } }

/-- The other blocks take their acceptance values (R20, R30, R55, R87, R144, R151, R156). -/
def acceptBlocks (s : State) : State :=
  { s with
    fetch := { s.fetch with posted := [], next := 0, inHand := none, deferred := false, counter := 0 }
    pass := { s.pass with locks := [] }
    expect :=
      { s.expect with
        items := []
        lines := Vector.ofFn fun i => { stable := (s.stationOf i).isSome && s.pins.sensors[i], change := none } }
    plan := { s.plan with gapMet := true, lastRelease := none }
    track := { s.track with piece := none }
    report :=
      { s.report with
        write := 0, head := 0, visible := 0, tail := 0, sinceHead := 0, halted := false, outstanding := some .head
        headWaits := !s.ownRoom } }

/-- The head-word write of 0 goes into the own-access FIFO when it has room (R141, R151; DESIGN CHOICE, log entry 26). -/
def headOfAcceptance (s : State) : State := if s.report.headWaits then s else pushZeroHead s

/-- Acceptance of the fetched setup in one event (R151): the SETUP record at the head of the queue, then the STATE
record of a change from UNSET. -/
def acceptSetup (s : State) : State :=
  let revision := s.copyRevision
  let s := handAcceptance revision (headOfAcceptance (acceptBlocks (enforceSetup s)))
  if s.run.state = .unset then changeRun .idle none s else s

/-- SETUP_DECISION (R148). -/
def execSetupDecision (s : State) : Host.Outcome State Fault Refusal :=
  .next (if s.mayDecide then
      match s.refusal with
      | some reason => refuseSetup reason (begin s)
      | none => settle (acceptSetup (begin s))
    else s)

/-! ### The report unit's writes -/

/-- The conditions of R159 for the write of the record at the head of the queue, and room in the FIFO (R141). -/
def State.mayWriteRecord (s : State) : Bool :=
  s.isSet && s.report.outstanding.isNone && s.ringRoom && !s.writesHeld && !s.headDue && s.ownRoom

/-- The write of the record at the head of the queue joins the FIFO; the record is in writing (R158, R159). -/
def issueRecord (q : Queued) (qs : List Queued) (s : State) : State :=
  pushOwn
    { kind := .recordWrite, addr := s.cfg.reportBase + 32 * s.report.write, len := 32, data := encodeRecord q.record }
    { s with report := { s.report with queue := { q with fixed := true } :: qs, outstanding := some .record } }

/-- RECORD_WRITE_ISSUE (R159). -/
def execRecordWriteIssue (s : State) : Host.Outcome State Fault Refusal :=
  .next (match s.report.queue with
    | [] => s
    | q :: qs => if s.mayWriteRecord then issueRecord q qs (begin s) else s)

/-- The particulars of a unit's next queued record, if any (R170). -/
def nextParticulars (u : UnitId) : List Queued → Option HitParticulars
  | [] => none
  | q :: qs =>
    match q.record with
    | .watchHit r => if r.particulars.unit = u then some r.particulars else nextParticulars u qs
    | _ => nextParticulars u qs

/-- A written WATCH_HIT record lowers its unit's pending hit by its count (R170; DEDUCED, log entry 23). -/
def settleHit (r : Record) (s : State) : State :=
  match r with
  | .watchHit h =>
    let u := h.particulars.unit
    let w := s.watch.unit u
    setUnit u { w with hits := w.hits - h.hits, first := nextParticulars u s.report.queue } s
  | _ => s

/-- A record write has completed OK: the record leaves the queue and the write index advances (R159). -/
def recordWritten (q : Queued) (qs : List Queued) (s : State) : State :=
  settleHit q.record
    { s with
      report :=
        { s.report with
          queue := qs, write := (s.report.write + 1) % s.cfg.reportSlots, sinceHead := s.report.sinceHead + 1
          outstanding := none } }

/-- RECORD_WRITE_COMPLETE (R159). -/
def execRecordWriteComplete (s : State) : Host.Outcome State Fault Refusal :=
  .next (match s.report.queue with
    | [] => s
    | q :: qs =>
      if s.carries .recordWrite && s.report.outstanding == some .record then
        settle (recordWritten q qs (freePort (begin s)))
      else s)

/-- The conditions of R160, and room in the FIFO (R141). -/
def State.mayWriteHead (s : State) : Bool :=
  s.isSet && s.report.outstanding.isNone && !s.writesHeld && s.headDue && s.ownRoom

/-- The head-word write of the write index joins the FIFO and the head becomes its value (R160). -/
def issueHead (s : State) : State :=
  pushOwn
    { kind := .headWrite s.report.write, addr := s.cfg.controlBase, len := 8, data := headBytes s.report.write }
    { s with report := { s.report with head := s.report.write, sinceHead := 0, outstanding := some .head } }

/-- HEAD_WORD_WRITE_ISSUE (R160). -/
def execHeadWordWriteIssue (s : State) : Host.Outcome State Fault Refusal :=
  .next (if s.mayWriteHead then issueHead (begin s) else s)

/-- The value of the head-word write that the memory port carries, if it carries one. -/
def State.headValue (s : State) : Option Nat :=
  match s.grantedOwn with
  | none => none
  | some a =>
    match a.kind with
    | .headWrite v => some v
    | _ => none

/-- HEAD_WORD_WRITE_COMPLETE (R160): the visible head becomes the value written. -/
def execHeadWordWriteComplete (s : State) : Host.Outcome State Fault Refusal :=
  .next (match s.headValue with
    | none => s
    | some v => { freePort (begin s) with report := { s.report with visible := v, outstanding := none } })

/-! ### The dump's writes -/

/-- The index of the dump write that the memory port carries, if it carries one. -/
def State.dumpWriteIndex (s : State) : Option Nat :=
  match s.grantedOwn with
  | none => none
  | some a =>
    match a.kind with
    | .dumpWrite k => some k
    | _ => none

/-- The dump has no write left to wait for: all have completed, or one has failed and those handed over have completed
(R172, R173). -/
def Dump.over (d : Dump) : Bool :=
  match d.failed with
  | none => d.done == dumpWrites d.snapshot.length
  | some _ => d.done == d.issued

/-- A dump write has completed; the dump ends with its last one (R172, R173). -/
def noteDumpWrite (d : Dump) (s : State) : State :=
  if d.over then endDump d s else { s with history := { s.history with dump := some d } }

/-- DUMP_WRITE_COMPLETE (R172). -/
def execDumpWriteComplete (s : State) : Host.Outcome State Fault Refusal :=
  .next (match s.dumpWriteIndex, s.history.dump with
    | some _, some d => noteDumpWrite { d with done := d.done + 1 } (freePort (begin s))
    | _, _ => s)

/-! ### Errors -/

/-- The failed access is a read of a setup fetch: it hands no stop cause (R143). -/
def OwnKind.isSetupRead : OwnKind → Bool
  | .setupRead _ => true
  | _ => false

/-- What the block that issued a failed access does (R6, R143, R147, R164, R173). A failed record stays in writing
(DEDUCED, log entry 24). -/
def blockError (k : OwnKind) (s : State) : State :=
  match k with
  | .slotRead => { s with fetch := { s.fetch with inHand := none } }
  | .postWrite => { s with fetch := { s.fetch with inHand := none } }
  | .setupRead _ => if s.setup.fetch = .fetching then noteSetupRead false [] s else s
  | .recordWrite => { s with report := { s.report with halted := true, outstanding := none } }
  | .headWrite _ => { s with report := { s.report with halted := true, outstanding := none } }
  | .dumpWrite i =>
    match s.history.dump with
    | none => s
    | some d => noteDumpWrite { d with done := d.done + 1, failed := some (d.failed.getD i) } s

/-- The memory-error flag is set (R143). -/
def flagError (s : State) : State := { s with pass := { s.pass with memError := true } }

/-- An own access completes with ERROR (R143): the flag, the block's own part, and the MEMORY stop (in this order:
DEDUCED, log entry 15). -/
def ownError (k : OwnKind) (s : State) : State :=
  let s := blockError k (flagError s)
  if k.isSetupRead then s else stopAtP .memory s

/-- OWN_ACCESS_ERROR (R143). -/
def execOwnAccessError (s : State) : Host.Outcome State Fault Refusal :=
  .next (match s.grantedOwn with
    | none => s
    | some a => settle (ownError a.kind (freePort (begin s))))

end Sys2Proof.Machine
end

