-- ==== Sys2Proof/Machine/TimeCommands.lean ====
section
/-! DEFINITION. The timebase's commands (03_run_states_and_the_transport.md, R50 to R54): a pulse on ENC and the 100 µs
tick, with the loss of the encoder and the expiry of the start timer that a tick can bring. -/

namespace Sys2Proof.Machine

/-! ### A pulse on ENC -/

/-- The TIMEBASE record of event RESTORED (R54). -/
def handRestored (s : State) : State :=
  handRecord (.timebase { restored := true, amount := s.time.estTicks, pos := s.time.pos }) s

/-- A pulse in estimate mode: the first one hands RESTORED (R54). -/
def estimatePulse (s : State) : State :=
  let s := { s with time := { s.time with pulsed := true } }
  if s.time.restored then s else handRestored { s with time := { s.time with restored := true } }

/-- A pulse in encoder mode: the silence count returns to 0 and P advances by one count (R21, R50). -/
def encoderPulse (s : State) : State := travel 1 { s with time := { s.time with pulsed := true, silence := 0 } }

/-- ENC_PULSE (R21). -/
def execEncPulse (s : State) : Host.Outcome State Fault Refusal :=
  .next (if s.time.estimate then estimatePulse (begin s) else encoderPulse (begin s))

/-! ### The tick -/

/-- The start timer expires on the next tick: it has then counted 100 times the start limit (R41, R42). -/
def State.timerExpires (s : State) : Bool :=
  s.run.state == .starting &&
    match s.run.timer with
    | none => false
    | some n => decide (100 * s.cfg.startLimit ≤ n + 1)

/-- The next tick raises the silence count: the watch condition holds and no pulse has arrived since the previous tick
(R50). -/
def State.silentTick (s : State) : Bool := s.watchCondition && !s.time.pulsed

/-- The next tick declares encoder loss: the silence count reaches the loss limit on it (R50). -/
def State.declaresLoss (s : State) : Bool := s.silentTick && decide (s.cfg.lossLimit ≤ s.time.silence + 1)

/-- What every tick counts: the start timer and the silence count, which returns to 0 on the tick that declares a loss
(R41, R50). -/
def countTick (s : State) : State :=
  { s with
    run := { s.run with timer := s.run.timer.map (· + 1) }
    time :=
      { s.time with
        pulsed := false
        silence := if s.declaresLoss then 0 else if s.silentTick then s.time.silence + 1 else s.time.silence } }

/-- The estimate of a tick: A takes the rate, P advances by the whole counts in A, and A keeps the rest; the estimate
tick count rises, up to 65,535 (R53). -/
def estimateTick (s : State) : State :=
  let a := s.time.acc + s.cfg.estRate
  travel (a / 16) { s with time := { s.time with acc := a % 16, estTicks := min (s.time.estTicks + 1) 65535 } }

/-- Every edge expectation takes the late tolerance of estimate mode, and the list its new order (R26). One whose expiry is
held takes the later due position too, which ends the hold (DESIGN CHOICE, log entry 34). -/
def widenAll (s : State) : State :=
  { s with
    expect := { s.expect with items := (s.expect.items.map Item.widen).foldl (fun l i => insertItem i l) [] } }

/-- The TIMEBASE record of event LOST (R51). -/
def handLost (s : State) : State :=
  handRecord (.timebase { restored := false, amount := s.cfg.estRate, pos := s.time.pos }) s

/-- The timebase enters estimate mode (R51). -/
def enterEstimate (s : State) : State :=
  widenAll { s with time := { s.time with estimate := true, acc := 0, estTicks := 0, restored := false } }

/-- Encoder loss is declared, by the loss action of the setup (R51). -/
def declareLoss (s : State) : State :=
  match s.cfg.lossAction with
  | .stop => stopAtP .encoderLost s
  | .drain =>
    let s := handLost (enterEstimate s)
    if s.run.state = .running then changeRun .draining none s else s

/-- A tick, with the loss or the expiry that falls on it (R42, R50, R53; DEDUCED, log entry 8). -/
def tickWork (s : State) : State :=
  let t := countTick s
  if s.timerExpires then stopAtP .transportStart t
  else if s.declaresLoss then declareLoss t
  else if s.time.estimate then estimateTick t
  else t

/-- TICK (R50). -/
def execTick (s : State) : Host.Outcome State Fault Refusal := .next (settle (tickWork (begin s)))

/-- ENCODER_LOSS (R51): the tick on which encoder loss is declared. -/
def execEncoderLoss (s : State) : Host.Outcome State Fault Refusal :=
  .next (if s.declaresLoss then settle (tickWork (begin s)) else s)

/-- START_TIMER_EXPIRY (R42): the tick on which the start timer expires. -/
def execStartTimerExpiry (s : State) : Host.Outcome State Fault Refusal :=
  .next (if s.timerExpires then settle (tickWork (begin s)) else s)

end Sys2Proof.Machine
end

