-- ==== Sys2Proof/Machine/LineCommands.lean ====
section
/-! DEFINITION. The commands of the input lines: TREADY and COVER (R41 to R44), the tray and stacker lines (R57, R60),
the raw level of a sensor line and the completion of its debounce (R24, R29, R30). -/

namespace Sys2Proof.Machine

/-! ### TREADY and COVER -/

/-- The level of TREADY. -/
def setTready (b : Bool) (s : State) : State := { s with pins := { s.pins with tready := b } }

/-- The level of COVER. -/
def setCover (b : Bool) (s : State) : State := { s with pins := { s.pins with cover := b } }

/-- TREADY rises: STARTING ends (R42). -/
def treadyUp (s : State) : State := if s.run.state = .starting then atSpeed s else s

/-- TREADY_RISE (R42). -/
def execTreadyRise (s : State) : Host.Outcome State Fault Refusal :=
  .next (if s.pins.tready then s else settle (treadyUp (setTready true (begin s))))

/-- TREADY_FALL (R43): TRANSPORT_LOST in RUNNING and DRAINING. -/
def execTreadyFall (s : State) : Host.Outcome State Fault Refusal :=
  .next (if s.pins.tready then settle (stopAtP .transportLost (setTready false (begin s))) else s)

/-- COVER_RISE (R41): the start condition is tested again. -/
def execCoverRise (s : State) : Host.Outcome State Fault Refusal :=
  .next (if s.pins.cover then s else settle (setCover true (begin s)))

/-- COVER_FALL (R43): COVER_OPEN in STARTING, RUNNING and DRAINING. -/
def execCoverFall (s : State) : Host.Outcome State Fault Refusal :=
  .next (if s.pins.cover then settle (stopAtP .coverOpen (setCover false (begin s))) else s)

/-! ### Trays and stackers -/

/-- The level of a TRAYRDY line. -/
def setTray (t : Fin 4) (b : Bool) (s : State) : State :=
  { s with pins := { s.pins with trayrdy := s.pins.trayrdy.set t b } }

/-- The level of a STKFULL line. -/
def setStacker (k : Stacker) (b : Bool) (s : State) : State :=
  match k with
  | .a => { s with pins := { s.pins with stkfullA := b } }
  | .b => { s with pins := { s.pins with stkfullB := b } }

/-- TRAYRDY_CHANGE (R57, R60). -/
def execTrayrdyChange (tray : Fin 4) (level : Bool) (s : State) : Host.Outcome State Fault Refusal :=
  .next (if s.trayReady tray = level then s else settle (setTray tray level (begin s)))

/-- STKFULL_CHANGE (R57, R60). -/
def execStkfullChange (stacker : Stacker) (level : Bool) (s : State) : Host.Outcome State Fault Refusal :=
  .next (if s.stackerFull stacker = level then s else settle (setStacker stacker level (begin s)))

/-! ### Sensor lines -/

/-- The raw level of a sensor line. -/
def setSensor (line : Fin 16) (b : Bool) (s : State) : State :=
  { s with pins := { s.pins with sensors := s.pins.sensors.set line b } }

/-- The debounce state of a sensor line. -/
def setLine (line : Fin 16) (x : Line) (s : State) : State :=
  { s with expect := { s.expect with lines := s.expect.lines.set line x } }

/-- The edge of a level: a rising level is a leading edge, a falling level a trailing edge. -/
def edgeOf (level : Bool) : Edge := if level then .le else .te

/-- A pending change completes: the stable level becomes its level, and an edge of its kind is delivered with its stamp
(R29). Another expectation that the change held is due from here on (DESIGN CHOICE, log entry 46). -/
def completeChange (line : Fin 16) (st : Station) (ch : PendingChange) (s : State) : State :=
  offerEdge (edgeOf ch.level) st ch.stamp (setLine line { stable := ch.level, change := none } s)

/-- The raw level becomes different from the stable level: a pending change is opened with stamp P, and with D = 0 it
completes at once (R29). -/
def openChange (line : Fin 16) (st : Station) (level : Bool) (s : State) : State :=
  let ch : PendingChange := { level := level, stamp := s.time.pos }
  if s.cfg.debounce = 0 then completeChange line st ch s
  else setLine line { stable := s.expect.lines[line].stable, change := some ch } s

/-- The expectation whose expiry a pending change of a station's line holds (R24). Of several, the first of the list, which
is the one due earlier, among equals the one armed earlier (DESIGN CHOICE, log entry 33). -/
def State.heldBy (s : State) (st : Station) : Option Item :=
  s.expect.items.find? fun i =>
    (i.awaits st .le || i.awaits st .te) && s.reached i.due && s.holdsExpiry i

/-- A pending change is abandoned: an expectation whose expiry it held expires at once (R24, R29). -/
def abandonChange (line : Fin 16) (st : Station) (s : State) : State :=
  let held := s.heldBy st
  let s := setLine line { stable := s.expect.lines[line].stable, change := none } s
  match held with
  | none => s
  | some i => expireItem i s

/-- The raw level of a line that serves a station has changed (R29). -/
def rawChange (line : Fin 16) (st : Station) (level : Bool) (s : State) : State :=
  match s.expect.lines[line].change with
  | some _ => abandonChange line st s
  | none => if level = s.expect.lines[line].stable then s else openChange line st level s

/-- SENSOR_LEVEL_CHANGE (R29, R30): a line that serves no station is not watched. -/
def execSensorLevelChange (line : Fin 16) (level : Bool) (s : State) : Host.Outcome State Fault Refusal :=
  .next (if s.pins.sensors[line] = level then s
    else
      match s.stationOf line with
      | none => setSensor line level (begin s)
      | some st => settle (rawChange line st level (setSensor line level (begin s))))

/-- DEBOUNCE_COMPLETION (R29): P has reached the stamp of the line's pending change plus D. -/
def execDebounceCompletion (line : Fin 16) (s : State) : Host.Outcome State Fault Refusal :=
  .next (match s.stationOf line, s.expect.lines[line].change with
    | some st, some ch => if s.changeDue line then settle (completeChange line st ch (begin s)) else s
    | _, _ => s)

end Sys2Proof.Machine
end

