-- ==== Sys2Proof/Machine/PathCommands.lean ====
section
/-! DEFINITION. The commands of the items that fall due in the expectation list: expiries (R23, R25) and position
events (R34). An item is taken when P has reached its due position; otherwise the command does not occur. -/

namespace Sys2Proof.Machine

/-- The item of a kind that is to be taken now (R23, R34). -/
def State.dueItem (s : State) (k : ItemKind) : Option Item :=
  s.expect.items.find? fun i => i.kind == k && s.itemDue i

/-- EXPECTATION_EXPIRY (R23, R25, R36): LATE for an LE, LONG for a TE. -/
def execExpectationExpiry (launch : Launch) (station : Station) (edge : Edge) (s : State) :
    Host.Outcome State Fault Refusal :=
  .next (match s.dueItem (.edge launch station edge) with
    | none => s
    | some it => settle (expireItem it (begin s)))

/-- DIV (R78). -/
def execDiv (launch : Launch) (s : State) : Host.Outcome State Fault Refusal :=
  .next (match s.dueItem (.div launch), s.entry? launch with
    | some it, some e => settle (divert e (dropItem it (begin s)))
    | _, _ => s)

/-- PARK (R81). -/
def execPark (launch : Launch) (s : State) : Host.Outcome State Fault Refusal :=
  .next (match s.dueItem (.park launch), s.entry? launch with
    | some it, some e => settle (parkEntry e.launch (dropItem it (begin s)))
    | _, _ => s)

/-- The TOP event of an entry with a side to image (R99, R101). -/
def fireTop (it : Item) (e : PathEntry) (s : State) : State :=
  match sideOf e with
  | none => s
  | some x => topEvent e x.1 x.2 it.pos s

/-- TOP (R101). -/
def execTop (launch : Launch) (s : State) : Host.Outcome State Fault Refusal :=
  .next (match s.dueItem (.top launch), s.entry? launch with
    | some it, some e => settle (fireTop it e (dropItem it (begin s)))
    | _, _ => s)

/-- The check of an entry whose side is current (R104). -/
def fireCheck (it : Item) (e : PathEntry) (s : State) : State :=
  match s.image.current with
  | none => s
  | some c => if c.launch = e.launch then checkSide e c it.pos s else s

/-- UNDERRUN_CHECK (R104). -/
def execUnderrunCheck (launch : Launch) (s : State) : Host.Outcome State Fault Refusal :=
  .next (match s.dueItem (.check launch), s.entry? launch with
    | some it, some e => settle (fireCheck it e (dropItem it (begin s)))
    | _, _ => s)

/-- The gap flag becomes MET (R69). -/
def gapOver (s : State) : State := { s with plan := { s.plan with gapMet := true } }

/-- GAP_WAIT (R69). -/
def execGapWait (s : State) : Host.Outcome State Fault Refusal :=
  .next (match s.dueItem .gap with
    | none => s
    | some it => settle (gapOver (dropItem it (begin s))))

/-- IDLE_WAIT (R45). -/
def execIdleWait (s : State) : Host.Outcome State Fault Refusal :=
  .next (match s.dueItem .idle with
    | none => s
    | some it => if s.moving then settle (fallIdle (dropItem it (begin s))) else s)

end Sys2Proof.Machine
end

