-- ==== Sys2Proof/Machine/ResetCommands.lean ====
section
/-! DEFINITION. The two kinds of reset (R20, R130, R144, R153, R154, R174 and the reset clauses of each chapter). The
input levels are the outside's and stay; the commands that wait are the outside's too. -/

namespace Sys2Proof.Machine

/-- The state after a power-on reset, with the straps as they are sampled at its end (R145, R153); the waiting commands
and the input levels stay (DESIGN CHOICE, log entry 21). -/
def afterPowerOn (base : BitVec 4) (s : State) : State :=
  { State.reset with
    pending := s.pending, pins := s.pins, setup := { State.reset.setup with base := base } }

/-- POWER_ON_RESET (R153, R154, R174). -/
def execPowerOnReset (base : BitVec 4) (s : State) : Host.Outcome State Fault Refusal := .next (afterPowerOn base s)

/-- The unit's keep-over-reset flag is set (R165); without a program there is none (DEDUCED, log entry 25). -/
def WatchUnit.keeps (w : WatchUnit) : Bool :=
  match w.program with
  | none => false
  | some p => p.keep

/-- A watch unit over a system reset: kept whole, or cleared (R174). -/
def WatchUnit.overReset (w : WatchUnit) : WatchUnit := if w.keeps then w else WatchUnit.cleared

/-- The event history over a system reset: kept when frozen, emptied otherwise; no dump is in progress (R173, R174). -/
def HistoryUnit.overReset (h : HistoryUnit) : HistoryUnit :=
  if h.frozen then { h with dump := none } else { entries := [], frozen := false, dump := none }

/-- The carried WATCH_HIT record of a unit with pending hits (R174). -/
def WatchUnit.carried (w : WatchUnit) : List Queued :=
  match w.first with
  | none => []
  | some p =>
    if 0 < w.hits then
      [{ record := .watchHit { particulars := p, hits := w.hits, carried := true }, fixed := false }]
    else []

/-- The state after a system reset: a power-on reset but for the retained tally, the kept watch units with their carried
records, W0's ahead of W1's (DESIGN CHOICE, log entry 40), and a frozen history (R153, R154, R174). -/
def afterSystem (base : BitVec 4) (s : State) : State :=
  let w : WatchUnits := { w0 := s.watch.w0.overReset, w1 := s.watch.w1.overReset }
  let p := afterPowerOn base s
  { p with
    tally := s.tally, watch := w, history := s.history.overReset
    report := { p.report with queue := w.w0.carried ++ w.w1.carried } }

/-- SYSTEM_RESET (R153, R154, R174). -/
def execSystemReset (base : BitVec 4) (s : State) : Host.Outcome State Fault Refusal := .next (afterSystem base s)

end Sys2Proof.Machine
end

