-- ==== Sys2Proof/Machine/Dispatch.lean ====
section
/-! DEFINITION. The dispatch of a command to its meaning: one arm per row of spec/opcode_table.json. -/

namespace Sys2Proof.Machine

/-- The effect of a command on everything but the queue of waiting commands. -/
def exec (i : Instr) (s : State) : Host.Outcome State Fault Refusal :=
  match i with
  | .boardBusWrite addr data tag => Sys2Proof.Machine.execBoardBusWrite addr data tag s
  | .boardBusRead addr len tag => Sys2Proof.Machine.execBoardBusRead addr len tag s
  | .memoryPortGrant => Sys2Proof.Machine.execMemoryPortGrant s
  | .orderPost => Sys2Proof.Machine.execOrderPost s
  | .commitWrite => Sys2Proof.Machine.execCommitWrite s
  | .tailWrite => Sys2Proof.Machine.execTailWrite s
  | .forwardedWriteComplete ok => Sys2Proof.Machine.execForwardedWriteComplete ok s
  | .forwardedReadComplete ok data => Sys2Proof.Machine.execForwardedReadComplete ok data s
  | .slotReadIssue => Sys2Proof.Machine.execSlotReadIssue s
  | .stalePost slot => Sys2Proof.Machine.execStalePost slot s
  | .kindUnknown slot => Sys2Proof.Machine.execKindUnknown slot s
  | .sheet slot => Sys2Proof.Machine.execSheet slot s
  | .hold slot => Sys2Proof.Machine.execHold slot s
  | .resume slot => Sys2Proof.Machine.execResume slot s
  | .standby slot => Sys2Proof.Machine.execStandby slot s
  | .cleared slot => Sys2Proof.Machine.execCleared slot s
  | .cancel slot => Sys2Proof.Machine.execCancel slot s
  | .watch slot => Sys2Proof.Machine.execWatch slot s
  | .dump slot => Sys2Proof.Machine.execDump slot s
  | .tally slot => Sys2Proof.Machine.execTally slot s
  | .ownAccessHandover block => Sys2Proof.Machine.execOwnAccessHandover block s
  | .postWordWritebackComplete => Sys2Proof.Machine.execPostWordWritebackComplete s
  | .setupFetchReadComplete data => Sys2Proof.Machine.execSetupFetchReadComplete data s
  | .setupDecision => Sys2Proof.Machine.execSetupDecision s
  | .recordWriteIssue => Sys2Proof.Machine.execRecordWriteIssue s
  | .recordWriteComplete => Sys2Proof.Machine.execRecordWriteComplete s
  | .headWordWriteIssue => Sys2Proof.Machine.execHeadWordWriteIssue s
  | .headWordWriteComplete => Sys2Proof.Machine.execHeadWordWriteComplete s
  | .dumpWriteComplete => Sys2Proof.Machine.execDumpWriteComplete s
  | .ownAccessError => Sys2Proof.Machine.execOwnAccessError s
  | .encPulse => Sys2Proof.Machine.execEncPulse s
  | .tick => Sys2Proof.Machine.execTick s
  | .encoderLoss => Sys2Proof.Machine.execEncoderLoss s
  | .startTimerExpiry => Sys2Proof.Machine.execStartTimerExpiry s
  | .treadyRise => Sys2Proof.Machine.execTreadyRise s
  | .treadyFall => Sys2Proof.Machine.execTreadyFall s
  | .coverRise => Sys2Proof.Machine.execCoverRise s
  | .coverFall => Sys2Proof.Machine.execCoverFall s
  | .trayrdyChange tray level => Sys2Proof.Machine.execTrayrdyChange tray level s
  | .stkfullChange stacker level => Sys2Proof.Machine.execStkfullChange stacker level s
  | .sensorLevelChange line level => Sys2Proof.Machine.execSensorLevelChange line level s
  | .debounceCompletion line => Sys2Proof.Machine.execDebounceCompletion line s
  | .expectationExpiry launch station edge => Sys2Proof.Machine.execExpectationExpiry launch station edge s
  | .div launch => Sys2Proof.Machine.execDiv launch s
  | .park launch => Sys2Proof.Machine.execPark launch s
  | .top launch => Sys2Proof.Machine.execTop launch s
  | .underrunCheck launch => Sys2Proof.Machine.execUnderrunCheck launch s
  | .gapWait => Sys2Proof.Machine.execGapWait s
  | .idleWait => Sys2Proof.Machine.execIdleWait s
  | .systemReset base => Sys2Proof.Machine.execSystemReset base s
  | .powerOnReset base => Sys2Proof.Machine.execPowerOnReset base s

end Sys2Proof.Machine
end

