-- ==== Sys2Proof/Safety.lean ====
section
/-! DEFINITION. What a safe run keeps: the conditions on the state that every step preserves, each named after what it
protects, and the relations between the state before and after a command that the statements use. -/

namespace Sys2Proof.Machine

/-! ### Conditions that every step keeps -/

/-- The transport is asked to run only with the path cover closed, and sheets are moved only with the transport at
speed (R41 to R43). -/
def State.transportSafe (s : State) : Prop :=
  (s.mrun = true → s.pins.cover = true) ∧ (s.moving = true → s.pins.tready = true)

/-- The state that a stop leaves and that stands until CLEARED: the snapshot is locked in STOPPED and only there, the
expectation list is empty, no entry is staged or attached, no side is current, and the gap is free (R37, R70, R105,
R111, R118). -/
def State.stopWhole (s : State) : Prop :=
  (s.recover.lock = true ↔ s.run.state = .stopped) ∧
    (s.run.state = .stopped →
      s.expect.items = [] ∧ s.plan.staged = none ∧ s.plan.gapMet = true ∧ s.plan.lastRelease = none ∧
        s.image.current = none ∧ ∀ e ∈ s.track.path, e.sheet = none)

/-- A setup is in force exactly outside UNSET, and the path table stays within its path depth (R38, R57, R74). -/
def State.pathFits (s : State) : Prop :=
  (s.run.state = .unset ↔ s.setup.inForce = none) ∧ (s.run.state = .unset → s.track.path = []) ∧
    s.track.path.length ≤ s.cfg.pathDepth

/-- The pass-through unit stays within its room: 8 forwarded and 16 own accesses, a wait count of 0 to 4 that is 0
whenever no own access waits (R131, R141, R142). -/
def State.portFits (s : State) : Prop :=
  s.pass.fwd.length ≤ 8 ∧ s.pass.own.length ≤ 16 ∧ s.pass.wait ≤ 4 ∧ (s.pass.own = [] → s.pass.wait = 0)

/-- The bounded collections and counters of the other blocks stay within their sizes: 32 history entries (R171), 32
retained sheets (R89), the accumulator below 16 and the estimate tick count at most 65,535 (R53), and the start timer
runs in STARTING and only there (R41 to R43). -/
def State.countsFit (s : State) : Prop :=
  s.history.entries.length ≤ 32 ∧ s.track.store.length ≤ 32 ∧ s.time.acc < 16 ∧ s.time.estTicks ≤ 65535 ∧
    (s.run.timer.isSome = true ↔ s.run.state = .starting)

/-! ### What a command leaves alone -/

/-- Nothing has changed but what an observer may do: the watch units, the records they hand over, the hold latch, the
frozen flag of the history, the pass-through unit and the outputs (R131, R138, R170). -/
def State.onlyObserved (s t : State) : Prop :=
  t.pending = s.pending ∧ t.fetch = s.fetch ∧ t.run = { s.run with hold := t.run.hold } ∧ t.time = s.time ∧
    t.expect = s.expect ∧ t.plan = s.plan ∧ t.track = s.track ∧ t.image = s.image ∧ t.recover = s.recover ∧
    t.report = { s.report with queue := t.report.queue } ∧ t.history = { s.history with frozen := t.history.frozen } ∧
    t.setup = s.setup ∧ t.tally = s.tally ∧ t.pins = s.pins

/-- What the end of an event never changes, whatever decisions it takes: the pass-through unit, the order fetcher but
for its schedule queue, the timebase's mode and counts, the diverter, the jog lines, the stacker piece record, the
retained store, the side port, the ring indices, the setup, the levels, and the tally but for its next serial. -/
def State.sameBeyondDecisions (s t : State) : Prop :=
  t.pending = s.pending ∧ t.pass = s.pass ∧ t.fetch = { s.fetch with schedule := t.fetch.schedule } ∧
    t.run.standby = s.run.standby ∧ t.time = { s.time with pos := t.time.pos, silence := t.time.silence, owed := t.time.owed } ∧
    t.expect.lines = s.expect.lines ∧
    t.track = { s.track with path := t.track.path, loop := t.track.loop } ∧
    t.image.port = s.image.port ∧ t.report = { s.report with queue := t.report.queue } ∧
    t.setup = s.setup ∧ t.tally = { s.tally with nextSerial := t.tally.nextSerial } ∧ t.pins = s.pins

/-- Every logical sheet that one state holds is held by the other, as often (R113). -/
def State.holdsSame (s t : State) : Prop := t.heldSheets.Perm s.heldSheets

/-- The held sheets stand in order (R13, R16, R113): each sequence in one place, from 1 to 4,194,304 behind the counter,
and the schedule queue ascending in sequence. -/
def State.sheetsInOrder (s : State) : Prop :=
  (s.heldSheets.map LogicalSheet.seq).Nodup ∧
    (∀ x ∈ s.heldSheets, 1 ≤ (s.fetch.counter - x.seq).toNat ∧ (s.fetch.counter - x.seq).toNat ≤ 4194304) ∧
    s.fetch.schedule.Pairwise fun x y => later y.seq x.seq = true

/-- No decision is pending and no counts of travel are owed: the end of an event has nothing to do. -/
def State.settled (s : State) : Prop := settle s = s

/-! ### What a command brings about -/

/-- The state that detaching the attached entries `gone` together leaves, each with its reason, its logical sheet's own way
aside. The entries stay in the path table, with PURGE in place of an unset route. Members of the loop FIFO whose route was
unset leave it, and U falls by the length of each plus the loop gap. The TOP events of the entries are withdrawn, a current
side of one of them ends and its underrun check is withdrawn, and a last stacker release that names one of them becomes
none (R62, R66, R100, R105, R112). -/
def State.withDetached (gone : List PathEntry) (reason : PathEntry → SpoilReason) (s : State) : State :=
  let leaving := gone.filter fun e => e.route.isNone && s.track.loop.contains e.launch
  let imaged (l : Launch) := s.image.current.any fun c => c.launch == l
  { s with
    track :=
      { s.track with
        path :=
          s.track.path.map fun e =>
            if e ∈ gone then { e with sheet := none, reason := some (reason e), route := some (e.route.getD .purge) }
            else e
        loop := leaving.foldl (fun ls e => ls.erase e.launch) s.track.loop }
    plan :=
      { s.plan with
        commitment := s.plan.commitment - (leaving.map fun e => e.ident.length + s.cfg.loopGap).sum
        lastStacker := s.plan.lastStacker.filter fun p => gone.all fun e => p.1 != e.launch }
    expect :=
      { s.expect with
        items :=
          s.expect.items.filter fun i =>
            gone.all fun e => i.kind != .top e.launch && !(i.kind == .check e.launch && imaged e.launch) }
    image := { s.image with current := s.image.current.filter fun c => gone.all fun e => c.launch != e.launch } }

/-- The event history with one more entry: the 32 most recent are kept, and a frozen history takes none (R171). -/
def HistoryUnit.remembering (h : HistoryUnit) (x : HistEntry) : HistoryUnit :=
  if h.frozen then h else { h with entries := (h.entries ++ [x]).drop (h.entries.length - 31) }

/-- The bytes `[a, a + la)` and `[b, b + lb)` of page memory have an address in common. -/
def touches (a la b lb : Nat) : Prop := ∃ x, a ≤ x ∧ x < a + la ∧ b ≤ x ∧ x < b + lb

/-- The queued records but for the watch units' WATCH_HIT records, whose place among the records of one event is the
model's choice (log entries 35 and 36). -/
def withoutHits (qs : List Queued) : List Queued :=
  qs.filter fun q =>
    match q.record with
    | .watchHit _ => false
    | _ => true

/-- From `s` to `t` the slot in hand has been answered with a post word and a record, and nothing else has changed: the
writeback has joined the own-access FIFO, the index has left the map, the next slot has advanced (R5). -/
def State.answered (post : List Byte) (record : Option Record) (s t : State) : Prop :=
  t =
    { s with
      pass :=
        { s.pass with
          own := s.pass.own ++
            [{ kind := .postWrite, addr := s.cfg.orderBase + 64 * s.slotIndex + 56, len := 8, data := post }] }
      fetch :=
        { s.fetch with
          posted := s.fetch.posted.erase s.slotIndex, next := (s.slotIndex + 1) % s.cfg.orderSlots, deferred := false
          finish := none }
      report :=
        { s.report with queue := s.report.queue ++ record.toList.map fun r => { record := r, fixed := false } } }

/-- From `s` to `t` a slot has been finished (R5): answered, with the cancel that the answer implies (R12), or, with the
own-access FIFO full, waiting to be answered (R141). -/
def State.finishes (f : Finish) (s t : State) : Prop :=
  if s.pass.own.length < 16 then
    ∃ u, State.answered f.post f.record s u ∧ t = if f.cancelOpen then impliedCancel u else u
  else t = { s with fetch := { s.fetch with finish := some f } }

/-- The finish of a control order with its result (R5, R18). -/
def controlFinish (s : State) (kind : Nat) (r : ControlResult) : Finish where
  post := [2, 0, 0, 0, byte (resultCode r), 0, 0, 0]
  record := some (.controlDone { slot := s.slotIndex, kind := byte kind, result := r })
  cancelOpen := false

/-- The finish of a rejected order with its reason (R5); a SHEET order's rejection cancels the open piece (R12). -/
def rejectFinish (s : State) (slot : List Byte) (r : RejectReason) : Finish where
  post := [3, 0, 0, 0, byte (rejectCode r), 0, 0, 0]
  record := some (.orderRejected
    { slot := s.slotIndex, kind := byte (byteAt slot 0), reason := r
      sheet := if byteAt slot 0 = 1 then some (sheetPiece slot, sheetIndex slot, sheetTag slot) else none })
  cancelOpen := byteAt slot 0 == 1

/-- The table of R108: the raster byte of each group of four mark bits, from 0x0 to 0xF. -/
def markTable : List Byte :=
  [0x55, 0x56, 0x59, 0x5A, 0x65, 0x66, 0x69, 0x6A, 0x95, 0x96, 0x99, 0x9A, 0xA5, 0xA6, 0xA9, 0xAA]

/-- The command is one of the two resets. -/
def isReset : Instr → Bool
  | .systemReset _ => true
  | .powerOnReset _ => true
  | _ => false

/-- The launch numbers of the path table are distinct (R74). -/
def State.launchesDistinct (s : State) : Prop := (s.track.path.map PathEntry.launch).Nodup

end Sys2Proof.Machine
end

