-- ==== Sys2Proof/Certificates/Slice0/Obligations.lean ====
section
/-! DEFINITION. The statements about the TK-40 that the provers prove, in the order of OBLIGATIONS.json. A statement whose
effect ends an event has the form "the command answers the settled state `settle d`", with `d` written out: `settle` is
what every event ends with (the decisions of run-state control and the planner, and the movement of P), and the statement
EndOfEventDecisions says what it decides and what it leaves alone. -/

open Sys2Proof Sys2Proof.Machine

/-! ### The machine -/

/-- A step takes the command at the front of the queue and is that command's effect on the state with the rest of the
queue; with no command waiting the block idles (the model's choice, log entry 6). -/
def Obligations.StepRunsFrontCommand : Prop :=
  (∀ (c : Instr) (cs : List Instr) (s : State), s.pending = c :: cs → step s = exec c { s with pending := cs }) ∧
    ∀ s : State, s.pending = [] → step s = .next s

/-- Every command, in every state, ends in a next state, and no command changes the queue of waiting commands. All of it
is the model's: the queue itself (log entry 6), its keeping over the two resets (log entry 21), and that a command whose
event cannot occur in the state ends in a next state too, the state as it was (log entry 7). -/
def Obligations.EveryCommandAnswersNext : Prop :=
  ∀ (c : Instr) (s : State), ∃ t, exec c s = .next t ∧ t.pending = s.pending

/-- The state after a power-on reset meets every condition that the invariants keep. -/
def Obligations.ResetMeetsTheConditions : Prop :=
  State.reset.transportSafe ∧ State.reset.stopWhole ∧ State.reset.pathFits ∧ State.reset.portFits ∧
    State.reset.countsFit ∧ State.reset.launchesDistinct

/-! ### Invariants of every step -/

/-- MRUN is high only with the cover closed, and the controller is RUNNING or DRAINING only with TREADY high (part of
R41 to R43). -/
def Obligations.TransportStaysSafe : Prop :=
  ∀ s t : State, s.transportSafe → step s = .next t → t.transportSafe

/-- The snapshot is locked exactly in STOPPED, and in STOPPED the expectation list is empty, no entry is staged or
attached, no side is current and the gap is free (part of R37, R70, R105, R111, R118). -/
def Obligations.StopStaysWhole : Prop :=
  ∀ s t : State, s.stopWhole → step s = .next t → t.stopWhole

/-- A setup is in force exactly outside UNSET, and the path table never holds more entries than the path depth (part of
R38, R57, R74). -/
def Obligations.PathStaysWithinDepth : Prop :=
  ∀ s t : State, s.pathFits → step s = .next t → t.pathFits

/-- The forward queue never holds more than 8 accesses, the own-access FIFO never more than 16, and the wait count stays
0 to 4 and is 0 while no own access waits (part of R131, R141, R142). -/
def Obligations.PortStaysWithinRoom : Prop :=
  ∀ s t : State, s.portFits → step s = .next t → t.portFits

/-- The history keeps at most 32 entries, the retained store at most 32 sheets, the accumulator stays below 16, the
estimate tick count stays at 65,535, and the start timer runs exactly in STARTING (part of R171, R89, R53, R41). -/
def Obligations.CountersStayInRange : Prop :=
  ∀ s t : State, s.countsFit → step s = .next t → t.countsFit

/-- The launch numbers in the path table stay distinct as long as the next launch number to be given is not one of them,
which R55 and R74 rest on the bound of 12 entries (part of R74). -/
def Obligations.LaunchNumbersStayDistinct : Prop :=
  ∀ s t : State, s.launchesDistinct → (∀ e ∈ s.track.path, e.launch ≠ s.plan.counter) → step s = .next t →
    t.launchesDistinct

/-! ### Rules of the whole machine -/

/-- ATTN changes at five commands only: a completed head-word write, a completed forwarded write (under whichever of its
names), an own-access error, a setup decision and a reset; and once the memory-error flag is set, no command but a reset
clears it, so that ATTN stays high (part of R143, R144, R163). -/
def Obligations.AttnAndMemoryError : Prop :=
  ∀ (c : Instr) (s t : State), exec c s = .next t →
    (t.attn ≠ s.attn →
      c = .headWordWriteComplete ∨ c = .orderPost ∨ c = .commitWrite ∨ c = .tailWrite ∨
        (∃ ok, c = .forwardedWriteComplete ok) ∨ c = .ownAccessError ∨ c = .setupDecision ∨ isReset c = true) ∧
    (isReset c = false → s.pass.memError = true → t.pass.memError = true ∧ t.attn = true)

/-- What the commands hold still: the setup in force and its revision change at a setup decision and at a reset only, the
sampled straps at a reset only, DIVSEL at a DIV event and at a reset only, and the side port at a TOP event and at a reset
only (part of R78, R102, R145, R151, R153). -/
def Obligations.HeldOverEveryOtherCommand : Prop :=
  ∀ (c : Instr) (s t : State), exec c s = .next t → isReset c = false →
    t.setup.base = s.setup.base ∧
      (c ≠ .setupDecision → t.setup.inForce = s.setup.inForce ∧ t.setup.revision = s.setup.revision) ∧
      ((∀ l, c ≠ .div l) → t.track.divsel = s.track.divsel) ∧
      ((∀ l, c ≠ .top l) → t.image.port = s.image.port)

/-- P moves over the counts of travel taken in one position at a time: it stops at the first position at which something
is due, and it passes no position at which something is due (part of R21; the counts that wait in `owed` are the model's
own, log entry 2). -/
def Obligations.PositionSkipsNothing : Prop :=
  ∀ (s : State), ∃ k ≤ s.time.owed,
    moveP s = { s with time := { s.time with pos := s.time.pos + BitVec.ofNat 24 k, owed := s.time.owed - k } } ∧
      (∀ j < k,
        { s with
          time := { s.time with pos := s.time.pos + BitVec.ofNat 24 j, owed := s.time.owed - j } }.somethingDue =
            false) ∧
      (k = s.time.owed ∨ (moveP s).somethingDue = true)

/-- What the end of an event decides and what it leaves alone. Whatever is decided, the pass-through unit, the setup, the
levels, the retained store and the stacker piece record among others stay. The decisions are, in the order of log entry 13
(DESIGN CHOICE): a drain in estimate mode with an empty path table is the stop ENCODER_DRAINED; IDLE with a sheet queued,
the standby latch clear and the cover closed enters STARTING, its start timer at 0, and with TREADY high goes on to
RUNNING; then the planner's release and staging; a falling idle condition withdraws the idle wait, a rising one arms it the
linger ahead of P or, with a linger of 0, falls to IDLE at once; and without the watch condition the silence count is 0.
Last, P moves (part of R41, R42, R45, R50, R52). -/
def Obligations.EndOfEventDecisions : Prop :=
  ∀ s : State,
    let moving := s.run.state = .running ∨ s.run.state = .draining
    let drained := s.run.state = .draining ∧ s.time.estimate = true ∧ s.track.path = []
    let starts := s.run.state = .idle ∧ s.fetch.schedule ≠ [] ∧ s.run.standby = false ∧ s.pins.cover = true
    let timed (n : Option Nat) : State :=
      let u := changeRun .starting none s
      { u with run := { u.run with timer := n } }
    let idles := moving ∧ s.time.estimate = false ∧ s.track.path = [] ∧ (s.fetch.schedule = [] ∨ s.run.standby = true)
    let armed := ∃ i ∈ s.expect.items, i.kind = .idle
    let wait : Item :=
      { kind := .idle, pos := s.time.pos + BitVec.ofNat 24 s.cfg.linger, early := 0, late := 0 }
    let expecting (items : List Item) : State := { s with expect := { s.expect with items := items } }
    let watches := moving ∧ s.pins.tready = true ∧ s.time.estimate = false
    s.sameBeyondDecisions (settle s) ∧
    settle s = moveP (silenceStep (idleStep (tryStage (tryRelease (startStep (drainStep s)))))) ∧
    (drained → drainStep s = stop .encoderDrained none s.time.pos none none s) ∧ (¬drained → drainStep s = s) ∧
    (¬starts → startStep s = s) ∧ (starts → s.pins.tready = false → startStep s = timed (some 0)) ∧
    (starts → s.pins.tready = true → startStep s = changeRun .running none (timed none)) ∧
    (¬idles → idleStep s = expecting (s.expect.items.filter (·.kind != .idle))) ∧ (idles → armed → idleStep s = s) ∧
    (idles → ¬armed → s.cfg.linger = 0 → idleStep s = changeRun .idle none s) ∧
    (idles → ¬armed → 1 ≤ s.cfg.linger → s.cfg.linger ≤ 65535 →
      idleStep s = expecting (insertItem wait s.expect.items)) ∧
    (watches → silenceStep s = s) ∧ (¬watches → silenceStep s = { s with time := { s.time with silence := 0 } })

/-- An underrun detaches its entry with reason UNDERRUN and every attached entry later in sequence with CASCADE, and
no other. The detached entries stay in the path table with PURGE in place of an unset route; a member of the loop FIFO
whose route was unset leaves it, and U falls by its length plus the loop gap; their TOP events, a current side of one
of them with its underrun check, and a last stacker release that names one of them go. The underrun enters the history
as one entry with the side, the number of entries cascaded, and the subject of the underrun entry (that the entry has
no station, the check's position and the run state after the step is log entry 12, DEDUCED). No logical sheet is lost:
the sheets of the detached entries go back to their places by sequence, and where the held sheets stood in order, they
do after it, the schedule queue ascending in sequence and each sequence in one place. Nothing else changes, the lock
table, the retained store, the stacker piece record and the tally among the rest (part of R16, R62, R66, R100, R105,
R112 to R114, R171). -/
def Obligations.UnderrunLosesNoSheet : Prop :=
  ∀ (s : State) (e : PathEntry) (side : Side) (pos : Pos), s.launchesDistinct → e ∈ s.track.path →
    e.sheet.isSome = true →
      let t := underrun e side pos s
      let cascaded :=
        s.track.path.filter fun x =>
          x.sheet.isSome && decide (x.ident.seq ≠ e.ident.seq ∧ (x.ident.seq - e.ident.seq).toNat < 8388608)
      t =
        { s.withDetached (e :: cascaded) fun x => if x = e then .underrun else .cascade with
          fetch := { s.fetch with schedule := t.fetch.schedule }
          history :=
            s.history.remembering
              { kind := .underrun side cascaded.length, station := none, serial := e.serial, seq := some e.ident.seq
                launch := some e.launch, pos := pos, runState := s.run.state } } ∧
        s.holdsSame t ∧
        t.attachedSheets = (s.track.path.filter fun x => x != e && !cascaded.contains x).filterMap PathEntry.sheet ∧
        (s.sheetsInOrder → t.sheetsInOrder)

/-! ### The board bus and the memory port -/

/-- A write whose bytes lie in one 64-byte block is judged once a setup is in force: by the locked-raster cell of its
class when it overlaps a locked extent, else by the report-area cell when it overlaps the ring or the head word, else by
the order-inflight cell when it overlaps the slot in hand, else it passes. It is offered to the watch units with its
outcome. PASS joins the forward queue; DROP and ERROR open or extend the POLICY record of their row, complete the write at
the port, OK or ERROR, and the write reaches no queue (part of R131, R133 to R138, R167). That the POLICY record stands
ahead of a WATCH_HIT of the same write is the model's order (log entry 4). -/
def Obligations.BusWriteJudged : Prop :=
  ∀ (s : State) (addr : Addr) (data : List Byte) (tag : BitVec 3) (row : Option PolicyRow) (o : PolicyOutcome),
    s.pass.fwd.length < 8 → addr.toNat % 64 + data.length ≤ 64 → s.run.state ≠ .unset →
    let a : Access := { addr := addr.toNat, len := data.length, write := true, data := data, tag := tag }
    let f : Forwarded := { access := a, cls := s.classOf tag }
    let locked := ∃ k ∈ s.pass.locks, touches a.addr a.len k.base k.len
    let report := touches a.addr a.len s.cfg.reportBase (32 * s.cfg.reportSlots) ∨ touches a.addr a.len s.cfg.controlBase 8
    let inflight := ∃ i, s.fetch.inHand = some i ∧ touches a.addr a.len (s.cfg.orderBase + 64 * i) 64
    (locked ∧ row = some .lockedRaster ∧ o = s.cfg.lockedRaster.cell (s.classOf tag) ∨
      ¬locked ∧ report ∧ row = some .reportArea ∧ o = s.cfg.reportArea.cell (s.classOf tag) ∨
      ¬locked ∧ ¬report ∧ inflight ∧ row = some .orderInflight ∧ o = s.cfg.orderInflight.cell (s.classOf tag) ∨
      ¬locked ∧ ¬report ∧ ¬inflight ∧ row = none ∧ o = .pass) →
    let fresh : State := { s with out := [] }
    let seen (w : State) : State :=
      offer
        (.bus { addr := a.addr, len := a.len, write := true, tag := tag, cls := s.classOf tag, outcome := o }) w
    let refused (r : PolicyRow) (p : PolicyField) : State := seen (handPolicy r p f none none fresh)
    ∃ t, exec (.boardBusWrite addr data tag) s = .next t ∧ s.onlyObserved t ∧
      match o with
      | .pass => t = { seen fresh with pass := { s.pass with fwd := s.pass.fwd ++ [f] } } ∧ ∀ x ∈ t.out, x = .wout
      | .drop =>
        ∃ r, row = some r ∧ t.pass = s.pass ∧
          t = { refused r .drop with out := (refused r .drop).out ++ [.busDone tag true []] }
      | .error =>
        ∃ r, row = some r ∧ t.pass = s.pass ∧
          t = { refused r .error with out := (refused r .error).out ++ [.busDone tag false []] }

/-- A board bus access at the port. A read whose bytes lie in one 64-byte block is taken while the forward queue has room:
it is offered to the watch units, with the outcome PASS (DEDUCED, log entry 17), and joins the queue with the class its
tag has now. With the forward queue full the access is not taken and its initiator waits (log entry 5). An access that
leaves its 64-byte block is offered with an outcome that the model leaves free (log entry 1), PASS in UNSET, is completed
ERROR and is not forwarded. In UNSET every write within a block is forwarded unjudged, and offered with PASS (part of R131,
R132, R133, R140, R167). -/
def Obligations.BusAccessTaken : Prop :=
  ∀ (s : State) (addr : Addr) (data : List Byte) (len : Nat) (tag : BitVec 3),
    let seen (write : Bool) (n : Nat) (o : PolicyOutcome) : State :=
      offer
        (.bus { addr := addr.toNat, len := n, write := write, tag := tag, cls := s.classOf tag, outcome := o })
        { s with out := [] }
    let joins (write : Bool) (n : Nat) (data : List Byte) : State :=
      { seen write n .pass with
        pass :=
          { s.pass with
            fwd := s.pass.fwd ++
              [{ access := { addr := addr.toNat, len := n, write := write, data := data, tag := tag }
                 cls := s.classOf tag }] } }
    let failed (write : Bool) (n : Nat) (o : PolicyOutcome) : State :=
      { seen write n o with out := (seen write n o).out ++ [.busDone tag false []] }
    (s.pass.fwd.length < 8 → addr.toNat % 64 + len ≤ 64 →
      exec (.boardBusRead addr len tag) s = .next (joins false len []) ∧ s.onlyObserved (joins false len []) ∧
        ∀ o ∈ (joins false len []).out, o = .wout) ∧
    (8 ≤ s.pass.fwd.length →
      exec (.boardBusRead addr len tag) s = .next { s with out := [.busWaits tag] } ∧
        exec (.boardBusWrite addr data tag) s = .next { s with out := [.busWaits tag] }) ∧
    (s.pass.fwd.length < 8 → 64 < addr.toNat % 64 + len →
      ∃ o, (s.run.state = .unset → o = .pass) ∧ exec (.boardBusRead addr len tag) s = .next (failed false len o) ∧
        s.onlyObserved (failed false len o) ∧ (failed false len o).pass = s.pass) ∧
    (s.pass.fwd.length < 8 → 64 < addr.toNat % 64 + data.length →
      ∃ o, (s.run.state = .unset → o = .pass) ∧
        exec (.boardBusWrite addr data tag) s = .next (failed true data.length o) ∧
        s.onlyObserved (failed true data.length o) ∧ (failed true data.length o).pass = s.pass) ∧
    (s.pass.fwd.length < 8 → addr.toNat % 64 + data.length ≤ 64 → s.run.state = .unset →
      exec (.boardBusWrite addr data tag) s = .next (joins true data.length data) ∧
        s.onlyObserved (joins true data.length data))

/-- The coalescing records. A policy outcome of a row folds into the row's open record, whose count rises up to 255,
whose mixed flag is set by a different outcome and whose other contents and place stand, or else opens a new record
with a count of 1 at the tail, with the write's address, length, tag and class and, for TAIL_VALUE, the value written
and the tail view. That an extended TAIL_VALUE record keeps the value and the tail view of the write that opened it is
the model's choice (DESIGN CHOICE, log entry 43). A change of the run state folds into the open STATE record, which
keeps its old state and takes all else, or opens one. A refusal of setup control folds into the open SETUP record,
which takes the new contents with its count raised up to 255, or opens one with a count of 1 (part of R39, R138, R139,
R152, R158). -/
def Obligations.RecordsCoalesce : Prop :=
  let handed (s : State) (qs : List Queued) : State := { s with report := { s.report with queue := qs } }
  (∀ (row : PolicyRow) (o : PolicyField) (f : Forwarded) (value view : Option Nat) (s : State),
    ((∀ q ∈ s.report.queue, ∀ r, q = { record := .policy r, fixed := false } → r.row ≠ row) →
      handPolicy row o f value view s =
        handed s (s.report.queue ++
          [{ record :=
               .policy
                 { row := row, outcome := o, count := 1, mixed := false, addr := f.access.addr, len := f.access.len
                   tag := f.access.tag, cls := f.cls, value := value, view := view }
             fixed := false }])) ∧
    ∀ (qs rs : List Queued) (r : PolicyRec),
      s.report.queue = qs ++ { record := .policy r, fixed := false } :: rs → r.row = row →
      (∀ q ∈ qs, ∀ r', q = { record := .policy r', fixed := false } → r'.row ≠ row) →
      handPolicy row o f value view s =
        handed s (qs ++
          { record :=
              .policy { r with count := min (r.count + 1) 255, mixed := r.mixed || decide (r.outcome ≠ o) }
            fixed := false } :: rs)) ∧
  (∀ (new : RunState) (cause : Option StopCause) (s : State),
    let r : StateRec :=
      { old := s.run.state, new := new, cause := cause, hold := s.run.hold, standby := s.run.standby, pos := s.time.pos }
    let changed (qs : List Queued) : State :=
      { s with run := { s.run with state := new }, report := { s.report with queue := qs } }
    ((∀ q ∈ s.report.queue, ∀ p, q ≠ { record := .state p, fixed := false }) →
      changeRun new cause s = changed (s.report.queue ++ [{ record := .state r, fixed := false }])) ∧
    ∀ (qs rs : List Queued) (p : StateRec), s.report.queue = qs ++ { record := .state p, fixed := false } :: rs →
      (∀ q ∈ qs, ∀ p', q ≠ { record := .state p', fixed := false }) →
      changeRun new cause s = changed (qs ++ { record := .state { r with old := p.old }, fixed := false } :: rs)) ∧
  ∀ (o : SetupOutcome) (fetched : Byte) (s : State),
    let r : SetupRec := { outcome := o, fetched := fetched, inForce := s.setup.revision, tally := s.tally, count := 1 }
    ((∀ q ∈ s.report.queue, ∀ p, q ≠ { record := .setup p, fixed := false }) →
      handRefusal o fetched s = handed s (s.report.queue ++ [{ record := .setup r, fixed := false }])) ∧
    ∀ (qs rs : List Queued) (p : SetupRec), s.report.queue = qs ++ { record := .setup p, fixed := false } :: rs →
      (∀ q ∈ qs, ∀ p', q ≠ { record := .setup p', fixed := false }) →
      handRefusal o fetched s =
        handed s (qs ++ { record := .setup { r with count := min (p.count + 1) 255 }, fixed := false } :: rs)

/-- The arbiter (R142). A port that carries an access is granted nothing; a free one is granted the head of the forward
queue or of the own-access FIFO by the table of the two queues and the wait count, so that an own access waits behind at
most 4 forwarded ones: the count stays 0 to 4, and 0 while the own-access FIFO is empty. After either kind of reset both
queues are empty and the count is 0. -/
def Obligations.ArbiterGrants : Prop :=
  ∀ s : State,
    (s.pass.granted ≠ none → exec .memoryPortGrant s = .next s) ∧
    (s.pass.granted = none →
      (s.pass.fwd = [] → s.pass.own = [] → exec .memoryPortGrant s = .next { s with out := [] }) ∧
      (∀ f fs, s.pass.fwd = f :: fs → s.pass.own = [] →
        exec .memoryPortGrant s =
          .next { s with out := [], pass := { s.pass with fwd := fs, granted := some (.forwarded f), wait := 0 } }) ∧
      (∀ a as, s.pass.fwd = [] → s.pass.own = a :: as →
        exec .memoryPortGrant s =
          .next { s with out := [], pass := { s.pass with own := as, granted := some (.own a), wait := 0 } }) ∧
      (∀ f fs a as, s.pass.fwd = f :: fs → s.pass.own = a :: as → s.pass.wait < 4 →
        exec .memoryPortGrant s =
          .next
            { s with
              out := []
              pass := { s.pass with fwd := fs, granted := some (.forwarded f), wait := s.pass.wait + 1 } }) ∧
      (∀ f fs a as, s.pass.fwd = f :: fs → s.pass.own = a :: as → 4 ≤ s.pass.wait →
        exec .memoryPortGrant s =
          .next { s with out := [], pass := { s.pass with own := as, granted := some (.own a), wait := 0 } })) ∧
    (s.pass.wait ≤ 4 → (s.pass.own = [] → s.pass.wait = 0) → ∀ t, exec .memoryPortGrant s = .next t →
      t.pass.wait ≤ 4 ∧ (t.pass.own = [] → t.pass.wait = 0)) ∧
    ∀ (base : BitVec 4) (t : State), exec (.systemReset base) s = .next t ∨ exec (.powerOnReset base) s = .next t →
      t.pass.fwd = [] ∧ t.pass.own = [] ∧ t.pass.wait = 0

/-- A forwarded write that completes OK and covers byte 56 of a slot of the order ring with the value 1 is a post: the
slot's index is in the posted-slot map from then on, a post of the next slot clears its deferred mark, and the
initiator gets its OK (part of R1, R13, R131). That a post of the slot in hand counts too, completing between the
handling that takes its index out of the map and the end of the writeback, is the model's choice (DESIGN CHOICE, log
entry 31). -/
def Obligations.PostJoinsMap : Prop :=
  ∀ (s : State) (f : Forwarded) (i : Nat), s.pass.granted = some (.forwarded f) → f.access.write = true →
    s.run.state ≠ .unset → s.cfg.orderBase % 64 = 0 → i < s.cfg.orderSlots →
    f.access.addr % 64 + f.access.len ≤ 64 → f.access.covers (s.cfg.orderBase + 64 * i + 56) = true →
    f.access.byteFor (s.cfg.orderBase + 64 * i + 56) = 1 → s.isCommit f.access = false →
    s.touchesTail f.access = false →
    ∃ m : List Nat, (∀ j, j ∈ m ↔ j = i ∨ j ∈ s.fetch.posted) ∧
      exec .orderPost s =
        .next
          { s with
            pass := { s.pass with granted := none }
            fetch := { s.fetch with posted := m, deferred := s.fetch.deferred && decide (s.fetch.next ≠ i) }
            out := [.busDone f.access.tag true []] }

/-- A commit write that completes OK begins a fetch when setup control is idle and the run state is UNSET or IDLE: the
first reads of the block join the own-access FIFO as far as it has room; otherwise it is refused with a SETUP record of
outcome BUSY and nothing else changes. A read of the fetch that completes adds its 64 bytes to the copy; with the last of
the 64 the fetch state becomes DECIDING, or, after a failed read, IDLE with the copy discarded and the setup refused with
MEMORY (part of R146, R147, R152). -/
def Obligations.SetupFetch : Prop :=
  (∀ (s : State) (f : Forwarded), s.pass.granted = some (.forwarded f) → f.access.write = true →
    f.access.covers (s.setupBase + 0xFF8) = true → f.access.byteFor (s.setupBase + 0xFF8) = 1 →
    s.postOf f.access = none → s.touchesTail f.access = false →
    let free : State := { s with out := [], pass := { s.pass with granted := none } }
    let done : State → State := fun t => { t with out := [.busDone f.access.tag true []] }
    (s.setup.fetch = .idle → s.run.state = .unset ∨ s.run.state = .idle →
      exec .commitWrite s =
        .next (done
          { free with
            pass :=
              { free.pass with
                own := s.pass.own ++
                  (List.range (16 - s.pass.own.length)).map fun k =>
                    { kind := .setupRead k, addr := s.setupBase + 64 * k, len := 64, data := [] } }
            setup :=
              { s.setup with
                fetch := .fetching, issued := 16 - s.pass.own.length, done := 0, failed := false, copy := [] } })) ∧
    (s.setup.fetch ≠ .idle ∨ s.run.state ≠ .unset ∧ s.run.state ≠ .idle →
      exec .commitWrite s = .next (done (handRefusal .busy 0 free)))) ∧
  ∀ (s : State) (a : OwnAccess) (k : Nat) (data : List Byte), s.pass.granted = some (.own a) → a.kind = .setupRead k →
    s.setup.fetch = .fetching → data.length = 64 →
    let free : State := { s with out := [], pass := { s.pass with granted := none } }
    let copy := s.setup.copy ++ [data]
    let n := s.setup.done + 1
    (n < 64 →
      exec (.setupFetchReadComplete data) s = .next { free with setup := { s.setup with copy := copy, done := n } }) ∧
    (64 ≤ n → s.setup.failed = false →
      exec (.setupFetchReadComplete data) s =
        .next { free with setup := { s.setup with copy := copy, done := n, fetch := .deciding } }) ∧
    (64 ≤ n → s.setup.failed = true →
      exec (.setupFetchReadComplete data) s =
        .next (handRefusal .memory 0 { free with setup := { s.setup with copy := [], done := n, fetch := .idle } }))

/-- A tail write that completes OK gives its value to the report unit when it is an index of the ring from the tail
view to the visible head in ring order; any other value, and a write of part of the tail value, leaves the tail view
and opens or extends the TAIL_VALUE record with RANGE, ORDER or PARTIAL (part of R139, R161). That a write of part of
the value is recorded when it completes OK, and that a value which fails both tests is RANGE, are the model's choices
(DESIGN CHOICE, log entries 37 and 38). -/
def Obligations.TailWriteChecked : Prop :=
  ∀ (s : State) (f : Forwarded), s.pass.granted = some (.forwarded f) → f.access.write = true →
    s.run.state ≠ .unset → s.postOf f.access = none → s.isCommit f.access = false →
    let free : State := { s with out := [], pass := { s.pass with granted := none } }
    let done : State → State := fun t => { t with out := [.busDone f.access.tag true []] }
    let first := s.cfg.controlBase + 8
    let v := leAt f.access.data (first - f.access.addr) 4
    let n := s.cfg.reportSlots
    let whole := f.access.addr ≤ first ∧ first + 3 < f.access.addr + f.access.len
    let order := (v + n - s.report.tail) % n ≤ (s.report.visible + n - s.report.tail) % n
    (whole → v < n → order →
      exec .tailWrite s = .next (done { free with report := { s.report with tail := v } })) ∧
    (whole → n ≤ v →
      exec .tailWrite s = .next (done (handPolicy .tailValue .range f (some v) (some s.report.tail) free))) ∧
    (whole → v < n → ¬order →
      exec .tailWrite s = .next (done (handPolicy .tailValue .order f (some v) (some s.report.tail) free))) ∧
    (¬whole → touches f.access.addr f.access.len first 4 →
      exec .tailWrite s = .next (done (handPolicy .tailValue .partialWrite f none (some s.report.tail) free)))

/-- Every forwarded write is returned to its initiator with memory's status: ERROR gives no notice, OK of a write that
is no post, no commit write and no tail write gives none either, and OK of one that is gives the notices of that
command (part of R131, R140). That FORWARDED_WRITE_COMPLETE with OK has the whole effect of ORDER_POST, COMMIT_WRITE
or TAIL_WRITE is the model's choice (DESIGN CHOICE, log entry 10). -/
def Obligations.ForwardedWriteReturns : Prop :=
  ∀ (s : State) (f : Forwarded), s.pass.granted = some (.forwarded f) → f.access.write = true →
    exec (.forwardedWriteComplete false) s =
      .next { s with pass := { s.pass with granted := none }, out := [.busDone f.access.tag false []] } ∧
    (s.postOf f.access = none → s.isCommit f.access = false → s.touchesTail f.access = false →
      exec (.forwardedWriteComplete true) s =
        .next { s with pass := { s.pass with granted := none }, out := [.busDone f.access.tag true []] }) ∧
    (s.postOf f.access ≠ none → exec (.forwardedWriteComplete true) s = exec .orderPost s) ∧
    (s.isCommit f.access = true → exec (.forwardedWriteComplete true) s = exec .commitWrite s) ∧
    (s.touchesTail f.access = true → exec (.forwardedWriteComplete true) s = exec .tailWrite s)

/-- A forwarded read returns memory's status and, for OK, memory's bytes; an IMAGER read completed OK while a side is
current also raises the side's progress to the read's end offset, when the read overlaps its extent, and returns the mark
bytes in place of memory's (part of R103, R109, R131). -/
def Obligations.ForwardedReadReturns : Prop :=
  ∀ (s : State) (f : Forwarded) (data : List Byte), s.pass.granted = some (.forwarded f) → f.access.write = false →
    let free : State := { s with pass := { s.pass with granted := none } }
    (exec (.forwardedReadComplete false data) s = .next { free with out := [.busDone f.access.tag false []] }) ∧
    (data.length = f.access.len → s.image.current = none ∨ f.cls ≠ .imager →
      exec (.forwardedReadComplete true data) s = .next { free with out := [.busDone f.access.tag true data] }) ∧
    ∀ c, data.length = f.access.len → s.image.current = some c → f.cls = .imager →
      ∃ p bytes, exec (.forwardedReadComplete true data) s =
          .next
            { free with
              image := { s.image with current := some { c with progress := p } }
              out := [.busDone f.access.tag true bytes] } ∧
        bytes = substitute s.cfg.markLines c f.access.addr data ∧
        (touches f.access.addr f.access.len c.base c.len →
          p = max c.progress (min (f.access.addr + f.access.len) (c.base + c.len) - c.base)) ∧
        (¬touches f.access.addr f.access.len c.base c.len → p = c.progress)

/-! ### The mark -/

/-- The sheet mark. The bytes that an IMAGER read returns are, at a raster offset of the mark area, the expanded mark byte
of its mark position, and everywhere else memory's byte. The mark value is 0x5A, the serial most significant byte first,
the byte of flags and index bits 11 to 8, index bits 7 to 0, and the sum of the seven modulo 256 (part of R106, R107,
R109). -/
def Obligations.SheetMark : Prop :=
  (∀ (lines : Nat) (c : CurrentSide) (m : Mark) (addr : Nat) (data : List Byte) (i : Nat), c.mark = some m →
    m.bytes.length = 16 → 16 ≤ c.stride → c.base ≤ addr → i < data.length →
    (substitute lines c addr data).length = data.length ∧
    (∀ k j, k < lines → j < 16 → addr + i - c.base = m.offset + k * c.stride + j →
      (substitute lines c addr data)[i]? = m.bytes[j]?) ∧
    ((∀ k j, k < lines → j < 16 → addr + i - c.base ≠ m.offset + k * c.stride + j) →
      (substitute lines c addr data)[i]? = data[i]?)) ∧
  (∀ (serial : Serial) (index : Nat) (last : Bool) (side : Side), index < 4096 →
    let v := markValue serial index last side
    v.length = 8 ∧ v[0]? = some 0x5A ∧
    (∀ k < 4, v[1 + k]?.map BitVec.toNat = some (serial.toNat / 256 ^ (3 - k) % 256)) ∧
    v[5]?.map BitVec.toNat =
      some ((if last then 128 else 0) + (if side = .back then 64 else 0) + index / 256) ∧
    v[6]?.map BitVec.toNat = some (index % 256) ∧
    v[7]?.map BitVec.toNat = some (((v.take 7).map BitVec.toNat).sum % 256))

/-- The expansion of mark bytes into raster bytes (R108): raster bytes `2i` and `2i + 1` come from the high and the low
four bits of mark byte `i`; each source bit, the most significant leftmost, becomes the two pixels dark, light for 1 and
light, dark for 0; the sixteen groups give the bytes of the table; every expanded byte has exactly four dark pixels and no
three neighbouring pixels of a line have one shade. -/
def Obligations.MarkExpansion : Prop :=
  ∀ bs : List Byte,
    let out := expandMark bs
    let pixels := out.flatMap fun b => (List.range 8).map fun k => b.getMsbD k
    out.length = 2 * bs.length ∧
    (bs.length = 8 → out.length = 16) ∧
    (∀ i q, i < bs.length → q < 8 →
      pixels[16 * i + 2 * q]? = bs[i]?.map (fun b => b.getMsbD q) ∧
        pixels[16 * i + 2 * q + 1]? = bs[i]?.map fun b => !b.getMsbD q) ∧
    (∀ i, i < bs.length →
      out[2 * i]? = bs[i]?.bind (fun b => markTable[b.toNat / 16]?) ∧
        out[2 * i + 1]? = bs[i]?.bind fun b => markTable[b.toNat % 16]?) ∧
    (∀ b ∈ out, ((List.range 8).filter fun k => b.getMsbD k).length = 4) ∧
    ∀ i, i + 2 < pixels.length → ¬(pixels[i]? = pixels[i + 1]? ∧ pixels[i + 1]? = pixels[i + 2]?)

/-! ### Orders -/

/-- The next slot's read is issued exactly when the conditions for it hold: a setup in force, the next slot posted, no
slot in hand, an occupancy of 5 or less, no setup fetch, the slot not deferred or its deferral over, and room in the
own-access FIFO. The read joins the FIFO and the slot is in hand; otherwise nothing happens (part of R2, R13, R141). -/
def Obligations.SlotReadIssues : Prop :=
  ∀ s : State,
    let may :=
      s.run.state ≠ .unset ∧ s.fetch.next ∈ s.fetch.posted ∧ s.fetch.inHand = none ∧
        s.report.queue.length + (if s.history.dump = none then 0 else 1) ≤ 5 ∧ s.setup.fetch = .idle ∧
        (s.fetch.deferred = true →
          s.fetch.schedule.length ≤ 63 ∧ ∀ x ∈ s.heldSheets, (s.fetch.counter - x.seq).toNat < 4194304) ∧
        s.pass.own.length < 16
    (may →
      exec .slotReadIssue s =
        .next
          { s with
            out := []
            fetch := { s.fetch with inHand := some s.fetch.next }
            pass :=
              { s.pass with
                own := s.pass.own ++
                  [{ kind := .slotRead, addr := s.cfg.orderBase + 64 * s.fetch.next, len := 64, data := [] }] } }) ∧
    (¬may → exec .slotReadIssue s = .next s)

/-- A slot that is read and is no longer POSTED is stale (R4): its index leaves the posted-slot map, the slot in hand and
the deferred mark go, nothing is written, no record is appended and the next slot stays. With the index in the map once,
as a map has it, no read of that slot is issued until it is posted anew. -/
def Obligations.StalePostsDropped : Prop :=
  ∀ (s : State) (slot : List Byte), s.slotReturns = true → byteAt slot 56 ≠ 1 →
    let t : State :=
      { s with
        out := []
        pass := { s.pass with granted := none }
        fetch := { s.fetch with posted := s.fetch.posted.erase s.slotIndex, inHand := none, deferred := false } }
    exec (.stalePost slot) s = .next t ∧
      (s.fetch.inHand = some s.fetch.next → s.fetch.posted.Nodup →
        s.fetch.next ∉ t.fetch.posted ∧
          ∀ u : State, u.fetch.next = t.fetch.next → u.fetch.posted = t.fetch.posted → exec .slotReadIssue u = .next u)

/-- A SHEET order that passes every test takes the counter's value as its sequence, the counter advances, its sheet
joins the schedule queue at the tail, one lock table entry a side joins the lock table, the open piece record follows,
and the slot is finished TAKEN with the sequence (part of R5, R11, R14, R15). That the whole finishing waits while the
own-access FIFO is full is the model's choice (DESIGN CHOICE, log entry 11). -/
def Obligations.SheetOrderAccepted : Prop :=
  ∀ (s : State) (slot : List Byte), s.slotReturns = true → byteAt slot 56 = 1 → byteAt slot 0 = 1 →
    s.fetch.schedule.length < 64 → (∀ x ∈ s.heldSheets, (s.fetch.counter - x.seq).toNat < 4194304) →
    judgeSheet s.setup.base s.cfg s.fetch.openPiece slot = none →
    ∃ d : State, ∃ x : LogicalSheet, exec (.sheet slot) s = .next (settle d) ∧ x = parseSheet s.fetch.counter slot ∧
      State.finishes
        { post := 2 :: toLE 3 s.fetch.counter.toNat ++ [0, 0, 0, 0], record := none, cancelOpen := false }
        { s with
          out := []
          fetch :=
            { s.fetch with
              counter := s.fetch.counter + 1
              schedule := s.fetch.schedule ++ [x]
              openPiece :=
                if x.last then none
                else if x.index = 1 then
                  some
                    { piece := x.piece, lastIndex := 1, count := 1, output := x.output, firstSeq := x.seq
                      eligible := decide (s.cfg.gateDepth = 1) }
                else
                  s.fetch.openPiece.map fun p =>
                    { p with
                      lastIndex := p.lastIndex + 1, count := p.count + 1
                      eligible := p.eligible || decide (s.cfg.gateDepth ≤ p.count + 1) } }
          pass :=
            { s.pass with
              granted := none
              locks := s.pass.locks ++
                { seq := x.seq, side := .front, base := x.front.base, len := x.front.len } ::
                  x.back.toList.map fun b => { seq := x.seq, side := .back, base := b.base, len := b.len } } }
        d

/-- A SHEET order is put back while the schedule queue holds 64 sheets or more, or a held sequence lies 4,194,304 or
more behind the counter: the slot in hand ends, the slot is marked deferred, and nothing else changes. Otherwise the
order is judged by tests in a fixed order, and the first that fails gives the reason: the reserved fields (FIELD); the
length (LENGTH); a tray that is fitted (TRAY); plex, back side and loop (PLEX); each raster's alignment, bounds,
stride, image length, distance from the controller's own structures and mark area (RASTER); the output (OUTPUT); the
index and its place in the open piece (PIECE_ORDER); the output of the open piece (OUTPUT_MIX). A rejected order is
finished REJECTED with that reason, the counter does not advance, and the open piece is cancelled; an order that
passes every test is accepted as SheetOrderAccepted says (part of R5, R7, R9, R10, R12, R13, R175). That PIECE_ORDER
is tested ahead of OUTPUT_MIX is log entry 16 (DEDUCED), and that the whole finishing waits while the own-access FIFO
is full is the model's choice (DESIGN CHOICE, log entry 11). -/
def Obligations.SheetOrderNotAccepted : Prop :=
  ∀ (s : State) (slot : List Byte), s.slotReturns = true → byteAt slot 56 = 1 → byteAt slot 0 = 1 →
    let defers := 64 ≤ s.fetch.schedule.length ∨ ∃ x ∈ s.heldSheets, 4194304 ≤ (s.fetch.counter - x.seq).toNat
    let x := parseSheet 0 slot
    let zero (first after : Nat) := ∀ i, first ≤ i → i < after → byteAt slot i = 0
    let flag (bit : Nat) := (byteAt slot 1).testBit bit = true
    let raster (r : SideRec) :=
      r.base % 64 = 0 ∧ 64 ≤ r.len ∧ r.len ≤ 16777215 ∧ r.base + r.len ≤ 4294967296 ∧
        64 ≤ r.stride ∧ r.stride ≤ 65535 ∧ r.stride % 8 = 0 ∧ 1 ≤ r.image ∧ r.image ≤ x.length ∧
        (∀ q ∈ ownRegions s.setup.base s.cfg, ¬touches r.base r.len q.1 q.2) ∧
        ∀ m, s.cfg.markEnable = true → r.mark = some m → m + (s.cfg.markLines - 1) * r.stride + 16 ≤ r.len
    let tests : List (Prop × RejectReason) :=
      [(byteAt slot 1 < 16 ∧ zero 5 6 ∧ zero 18 20 ∧ zero 52 56 ∧ (¬flag 1 → zero 36 52) ∧ (¬flag 2 → zero 32 36) ∧
          (¬flag 3 → zero 48 52), .field),
        (1000 ≤ x.length ∧ x.length ≤ 5000, .length),
        (∃ tray : Fin 4, byteAt slot 3 = tray.val + 1 ∧ (s.cfg.station (feedStation tray)).present = true, .tray),
        (byteAt slot 2 = 1 ∧ ¬flag 1 ∨ byteAt slot 2 = 2 ∧ flag 1 ∧ s.cfg.loopLength ≠ 0, .plex),
        (raster x.front ∧ ∀ b, x.back = some b → raster b, .raster),
        (byteAt slot 4 = 1 ∨ byteAt slot 4 = 2, .output),
        (1 ≤ x.index ∧ x.index ≤ 4095 ∧ (x.index = 4095 → x.last = true) ∧ (s.fetch.openPiece = none → x.index = 1) ∧
          ∀ p, s.fetch.openPiece = some p → x.piece = p.piece ∧ x.index = p.lastIndex + 1, .pieceOrder),
        (∀ p, s.fetch.openPiece = some p → x.output = p.output, .outputMix)]
    (defers →
      exec (.sheet slot) s =
        .next (settle { freePort (begin s) with fetch := { s.fetch with inHand := none, deferred := true } })) ∧
    (∀ before after holds r, ¬defers → tests = before ++ (holds, r) :: after → (∀ p ∈ before, p.1) → ¬holds →
      ∃ d, exec (.sheet slot) s = .next (settle d) ∧
        State.finishes (rejectFinish s slot r) (freePort (begin s)) d ∧ d.fetch.counter = s.fetch.counter ∧
        (s.pass.own.length < 16 → d.fetch.openPiece = none)) ∧
    (judgeSheet s.setup.base s.cfg s.fetch.openPiece slot = none ↔ ∀ p ∈ tests, p.1)

/-- What an accepted SHEET order satisfies: length, tray, plex and output in range, each raster aligned, within its bounds
and off the controller's own structures, the index continuing the open piece with its output or opening one at 1, and no
open end at 4,095 (part of R9, R10). -/
def Obligations.AcceptedSheetIsSound : Prop :=
  ∀ (base : BitVec 4) (c : Setup) (o : Option OpenPiece) (slot : List Byte), judgeSheet base c o slot = none →
    let x := parseSheet 0 slot
    1000 ≤ x.length ∧ x.length ≤ 5000 ∧ byteAt slot 3 = x.tray.val + 1 ∧
    (c.station (feedStation x.tray)).present = true ∧
    (byteAt slot 2 = 1 ∧ x.plex = .simplex ∨ byteAt slot 2 = 2 ∧ x.plex = .duplex) ∧
    (byteAt slot 4 = 1 ∧ x.output = .a ∨ byteAt slot 4 = 2 ∧ x.output = .b) ∧
    1 ≤ x.index ∧ x.index ≤ 4095 ∧ (x.index = 4095 → x.last = true) ∧
    (o = none → x.index = 1) ∧
    (∀ p, o = some p → p.piece = x.piece ∧ x.index = p.lastIndex + 1 ∧ x.output = p.output) ∧
    (x.plex = .duplex ↔ x.back.isSome = true) ∧ (x.plex = .duplex → c.loopLength ≠ 0) ∧
    ∀ r, (r = x.front ∨ x.back = some r) →
      r.base % 64 = 0 ∧ 64 ≤ r.len ∧ r.len ≤ 16777215 ∧ r.base + r.len ≤ 4294967296 ∧
      64 ≤ r.stride ∧ r.stride ≤ 65535 ∧ r.stride % 8 = 0 ∧ 1 ≤ r.image ∧ r.image ≤ x.length ∧
      (∀ q ∈ ownRegions base c, ¬touches r.base r.len q.1 q.2) ∧
      (∀ m, c.markEnable = true → r.mark = some m → m + (c.markLines - 1) * r.stride + 16 ≤ r.len)

/-- An order whose kind byte is none of 1 to 9 is finished REJECTED with KIND_UNKNOWN, a control order of a kind that
the kind enable mask disables with KIND_DISABLED, and one with a non-zero reserved byte or a field out of range with
FIELD; none reaches an owning block (part of R5, R7, R8, R175). That the whole finishing waits while the own-access
FIFO is full is the model's choice (DESIGN CHOICE, log entry 11). -/
def Obligations.ControlOrderJudged : Prop :=
  ∀ (s : State) (slot : List Byte), s.slotReturns = true → byteAt slot 56 = 1 →
    let off (k : Nat) := byteAt slot 0 = k ∧ s.cfg.kindEnable.getLsbD k = false
    let on (k : Nat) := byteAt slot 0 = k ∧ (k = 3 ∨ k = 5 ∨ s.cfg.kindEnable.getLsbD k = true)
    let rejects (c : Instr) (r : RejectReason) :=
      ∃ d, exec c s = .next (settle d) ∧ State.finishes (rejectFinish s slot r) (freePort (begin s)) d
    (byteAt slot 0 < 1 ∨ 9 < byteAt slot 0 → rejects (.kindUnknown slot) .kindUnknown) ∧
    (off 2 → rejects (.hold slot) .kindDisabled) ∧ (off 4 → rejects (.standby slot) .kindDisabled) ∧
    (off 6 → rejects (.cancel slot) .kindDisabled) ∧ (off 7 → rejects (.watch slot) .kindDisabled) ∧
    (off 8 → rejects (.dump slot) .kindDisabled) ∧ (off 9 → rejects (.tally slot) .kindDisabled) ∧
    (∀ i, 1 ≤ i → i < 56 → byteAt slot i ≠ 0 →
      (on 2 → rejects (.hold slot) .field) ∧ (on 3 → rejects (.resume slot) .field) ∧
      (on 4 → rejects (.standby slot) .field) ∧ (on 5 → rejects (.cleared slot) .field) ∧
      (on 6 → (i < 4 ∨ 8 ≤ i) → rejects (.cancel slot) .field) ∧
      (on 9 → (i < 8 ∨ 12 ≤ i) → rejects (.tally slot) .field)) ∧
    (on 7 → (watchReservedOk slot && watchFieldsOk s.cfg slot) = false → rejects (.watch slot) .field) ∧
    (on 8 → (dumpReservedOk slot && dumpFieldsOk s.setup.base s.cfg slot) = false → rejects (.dump slot) .field)

/-- HOLD, STANDBY and RESUME, well formed and enabled: HOLD sets the hold latch; STANDBY sets the standby latch and
turns RUNNING into DRAINING; RESUME clears both and turns DRAINING, outside estimate mode, into RUNNING. Run-state
control takes up its conditions, then the order is answered OK (part of R18, R46, R47, R48). That run-state control
decides before the order is answered is log entry 14 (DEDUCED), and that the whole finishing waits while the
own-access FIFO is full is log entry 11 (DESIGN CHOICE). -/
def Obligations.LatchOrders : Prop :=
  ∀ (s : State) (slot : List Byte), s.slotReturns = true → byteAt slot 56 = 1 → (∀ i, 1 ≤ i → i < 56 → byteAt slot i = 0) →
    let free := freePort (begin s)
    let answers (c : Instr) (k : Nat) (w : State) :=
      ∃ d, exec c s = .next (settle d) ∧ State.finishes (controlFinish s k .ok) (decideRun w) d
    (byteAt slot 0 = 2 → s.cfg.kindEnable.getLsbD 2 = true →
      answers (.hold slot) 2 { free with run := { s.run with hold := true } }) ∧
    (byteAt slot 0 = 4 → s.cfg.kindEnable.getLsbD 4 = true →
      let latched : State := { free with run := { s.run with standby := true } }
      answers (.standby slot) 4 (if s.run.state = .running then changeRun .draining none latched else latched)) ∧
    (byteAt slot 0 = 3 →
      let latched : State := { free with run := { s.run with hold := false, standby := false } }
      answers (.resume slot) 3
        (if s.run.state = .draining ∧ s.time.estimate = false then changeRun .running none latched else latched))

/-- CLEARED is refused with NOT_STOPPED outside STOPPED, and with PATH_NOT_CLEAR while the cover is open or the line
of a present station is stable high or has a pending change. Accepted, it empties the path table and the loop FIFO,
clears the snapshot's lock but not its contents, takes the timebase out of estimate mode with P as it stands, makes
the run state IDLE with its STATE record, and enters CLEARED in the event history (part of R49, R54, R70, R128, R171).
That the history entry stands behind the change of the run state, and so shows IDLE, and that it carries the position
P and no station is the model's reading (DEDUCED, log entry 12). That run-state control decides before the order is
answered is log entry 14 (DEDUCED), and that the whole finishing waits while the own-access FIFO is full is log entry
11 (DESIGN CHOICE). -/
def Obligations.ClearedJudged : Prop :=
  ∀ (s : State) (slot : List Byte), s.slotReturns = true → byteAt slot 56 = 1 → byteAt slot 0 = 5 →
    (∀ i, 1 ≤ i → i < 56 → byteAt slot i = 0) →
    let free := freePort (begin s)
    let occupied (st : Station) (l : Fin 16) :=
      (s.cfg.station st).present = true ∧ (s.cfg.station st).line = l.val ∧
        (s.expect.lines[l].stable = true ∨ s.expect.lines[l].change ≠ none)
    let answers (r : ControlResult) (w : State) :=
      ∃ d, exec (.cleared slot) s = .next (settle d) ∧ State.finishes (controlFinish s 5 r) (decideRun w) d
    (s.run.state ≠ .stopped → answers .notStopped free) ∧
    (s.run.state = .stopped → s.pins.cover = false → answers .pathNotClear free) ∧
    (s.run.state = .stopped → (∃ st l, occupied st l) → answers .pathNotClear free) ∧
    (s.run.state = .stopped → s.pins.cover = true → (¬∃ st l, occupied st l) →
      answers .ok
        (appendHist .cleared none none none none s.time.pos
          (changeRun .idle none
            { free with
              track := { s.track with path := [], loop := [] }
              plan := { s.plan with commitment := 0, lastStacker := none }
              expect := { s.expect with items := [] }
              image := { s.image with current := none }
              recover := { s.recover with lock := false }
              time :=
                { s.time with estimate := false, acc := 0, silence := 0, estTicks := 0, restored := false } })))

/-- CANCEL of a piece that nothing names is answered NO_PIECE; otherwise the piece is given up and the answer is OK.
Either way an open piece of that id is closed (part of R18, R19, R123). That run-state control decides before the
order is answered is log entry 14 (DEDUCED), and that the whole finishing waits while the own-access FIFO is full is
log entry 11 (DESIGN CHOICE). -/
def Obligations.CancelAnswered : Prop :=
  ∀ (s : State) (slot : List Byte), s.slotReturns = true → byteAt slot 56 = 1 → byteAt slot 0 = 6 →
    s.cfg.kindEnable.getLsbD 6 = true → (∀ i, 1 ≤ i → i < 56 → ¬(4 ≤ i ∧ i < 8) → byteAt slot i = 0) →
    let p : PieceId := BitVec.ofNat 32 (leAt slot 4 4)
    let known := (∃ x ∈ s.heldSheets, x.piece = p) ∨ ∃ r, s.track.piece = some r ∧ r.piece = p
    let closed (t : State) : State :=
      if (∃ o, s.fetch.openPiece = some o ∧ o.piece = p) then { t with fetch := { t.fetch with openPiece := none } } else t
    let answers (r : ControlResult) (w : State) :=
      ∃ d, exec (.cancel slot) s = .next (settle d) ∧ State.finishes (controlFinish s 6 r) (decideRun w) d
    (¬known → answers .noPiece (closed (freePort (begin s)))) ∧
    (known → answers .ok (closed (cancelPiece p (freePort (begin s)))))

/-- Giving up a piece: no held sheet of it is left and every other one stays where it was. Its entries are detached
with reason CANCELLED and stay in the path table, with PURGE in place of an unset route; a member of the loop FIFO
whose route was unset leaves it, and U falls by its length plus the loop gap; their TOP events, a current side of one
of them with its underrun check, and a last stacker release that names one of them go. The piece's lock table entries
go and the others stay. A stacker piece record that names the piece becomes empty, any other stays. One
PIECE_CANCELLED record counts the pending sheets, the sheets in the path and the voided ones, and nothing else
changes, the tally and the history among the rest (part of R62, R66, R100, R105, R112, R124, R125, R126). The premises
are rules of the spec: distinct launch numbers (R74), and a retained store that holds sheets of the stacker piece
record's piece alone (R89). -/
def Obligations.CancelGivesUpPiece : Prop :=
  ∀ (p : PieceId) (s : State), s.launchesDistinct →
    (∀ x ∈ s.track.store, ∃ r, s.track.piece = some r ∧ r.piece = x.piece) →
    let t := cancelPiece p s
    let others := fun x : LogicalSheet => x.piece != p
    let named := s.track.piece.filter fun r => r.piece == p
    let gone := s.track.path.filter fun e => e.sheet.any fun x => x.piece == p
    let detached := s.withDetached gone fun _ => .cancelled
    t =
      { detached with
        fetch := t.fetch, pass := { s.pass with locks := t.pass.locks }
        track := { detached.track with store := t.track.store, piece := s.track.piece.filter fun r => r.piece != p }
        report := { s.report with queue := t.report.queue } } ∧
    t.fetch = { s.fetch with schedule := s.fetch.schedule.filter others } ∧
    t.attachedSheets = s.attachedSheets.filter others ∧
    t.track.store = s.track.store.filter others ∧
    (∀ e ∈ gone,
      ∃ e' ∈ t.track.path, e'.launch = e.launch ∧ e'.sheet = none ∧ e'.reason = some .cancelled ∧
        e'.serial = e.serial ∧ e'.route = some (e.route.getD .purge)) ∧
    (∀ k, k ∈ t.pass.locks ↔ k ∈ s.pass.locks ∧ ∀ x ∈ s.heldSheets, x.piece = p → k.seq ≠ x.seq) ∧
    t.report.queue =
      s.report.queue ++
        [{ record :=
             .pieceCancelled
               { piece := p
                 pendingCount := (s.fetch.schedule.filter fun x => x.piece == p).length
                 inPath := (s.attachedSheets.filter fun x => x.piece == p).length
                 voided := (named.map StackerPiece.count).getD 0
                 first := named.map StackerPiece.firstSerial
                 last := named.map StackerPiece.lastSerial
                 committed := (named.map StackerPiece.committed).getD false }
           fixed := false }]

/-- A WATCH order, well formed and enabled: DISABLE disarms the unit and clears its program, keeping the remaining
count and the pending hit; a program is refused with UNIT_ARMED while the unit is ARMED or WAITING, and taken
otherwise, the unit ARMED or, for AFTER_W0, WAITING with its count (part of R166). That run-state control decides
before the order is answered is log entry 14 (DEDUCED), and that the whole finishing waits while the own-access FIFO
is full is log entry 11 (DESIGN CHOICE). -/
def Obligations.WatchOrderAnswered : Prop :=
  ∀ (s : State) (slot : List Byte) (u : UnitId), s.slotReturns = true → byteAt slot 56 = 1 → byteAt slot 0 = 7 →
    s.cfg.kindEnable.getLsbD 7 = true → (watchReservedOk slot && watchFieldsOk s.cfg slot) = true →
    byteAt slot 1 = unitCode u →
    let free := freePort (begin s)
    let w := s.watch.unit u
    let p := parseWatch slot
    let answers (r : ControlResult) (x : State) :=
      ∃ d, exec (.watch slot) s = .next (settle d) ∧ State.finishes (controlFinish s 7 r) (decideRun x) d
    (byteAt slot 2 = 0 → answers .ok (setUnit u { w with program := none, state := .disarmed } free)) ∧
    (byteAt slot 2 ≠ 0 → w.state = .armed ∨ w.state = .waiting → answers .unitArmed free) ∧
    (byteAt slot 2 ≠ 0 → w.state = .disarmed ∨ w.state = .spent →
      answers .ok
        (setUnit u
          { w with program := some p, remaining := leAt slot 6 2
                   state := if byteAt slot 4 = 1 then .waiting else .armed } free))

/-- A DUMP order, well formed and enabled: BUSY while a dump is in progress; with an empty history it ends at once,
its DUMP_DONE ahead of the CONTROL_DONE; otherwise the newest entries become the snapshot, oldest first, and its
writes join the own-access FIFO as far as it has room. A dump write completes: with writes left the dump goes on; with
the last one it ends, the history is unfrozen if the order asked for it and no write failed, and DUMP_DONE joins the
queue in place of the reservation (part of R18, R157, R172, R173). That run-state control decides before the order is
answered is log entry 14 (DEDUCED), and that the whole finishing waits while the own-access FIFO is full is log entry
11 (DESIGN CHOICE). That the first dump writes join the FIFO ahead of the order's own writeback is log entry 32
(DESIGN CHOICE). -/
def Obligations.Dumps : Prop :=
  (∀ (s : State) (slot : List Byte), s.slotReturns = true → byteAt slot 56 = 1 → byteAt slot 0 = 8 →
    s.cfg.kindEnable.getLsbD 8 = true → (dumpReservedOk slot && dumpFieldsOk s.setup.base s.cfg slot) = true →
    let free := freePort (begin s)
    let held := s.history.entries.length
    let k := min (byteAt slot 4) held
    let snapshot := s.history.entries.drop (held - k)
    let n := min (16 - s.pass.own.length) ((k + 3) / 4)
    let answers (r : ControlResult) (x : State) :=
      ∃ d, exec (.dump slot) s = .next (settle d) ∧ State.finishes (controlFinish s 8 r) (decideRun x) d
    (s.history.dump ≠ none → answers .busy free) ∧
    (s.history.dump = none → held = 0 →
      answers .ok
        (handRecord
          (.dumpDone
            { ok := true, written := 0, held := 0, dest := leAt slot 8 4, pos := s.time.pos
              frozen := s.history.frozen && decide (byteAt slot 5 ≠ 1) })
          { free with history := { s.history with frozen := s.history.frozen && decide (byteAt slot 5 ≠ 1) } })) ∧
    (s.history.dump = none → 0 < held →
      answers .ok
        { free with
          pass :=
            { free.pass with
              own := s.pass.own ++
                (List.range n).map fun j =>
                  { kind := .dumpWrite j, addr := leAt slot 8 4 + 64 * j, len := 64, data := dumpBytes snapshot j } }
          history :=
            { s.history with
              dump :=
                some
                  { dest := leAt slot 8 4, unfreeze := byteAt slot 5 == 1, snapshot := snapshot, held := held
                    pos := s.time.pos, issued := n, done := 0, failed := none } } })) ∧
  ∀ (s : State) (a : OwnAccess) (k : Nat) (p : Dump), s.pass.granted = some (.own a) → a.kind = .dumpWrite k →
    s.history.dump = some p →
    let free : State := { s with out := [], pass := { s.pass with granted := none } }
    let p' := { p with done := p.done + 1 }
    let last := p.failed = none ∧ p.done + 1 = (p.snapshot.length + 3) / 4 ∨ p.failed ≠ none ∧ p.done + 1 = p.issued
    let frozen := s.history.frozen && !(p.unfreeze && decide (p.failed = none))
    (¬last → exec .dumpWriteComplete s = .next { free with history := { s.history with dump := some p' } }) ∧
    (last →
      exec .dumpWriteComplete s =
        .next
          (handRecord
            (.dumpDone
              { ok := decide (p.failed = none)
                written := match p.failed with
                  | none => p.snapshot.length
                  | some j => min p.snapshot.length (4 * j)
                held := p.held, dest := p.dest, pos := p.pos, frozen := frozen })
            { free with history := { s.history with dump := none, frozen := frozen } }))

/-- A TALLY order, well formed and enabled, is refused with TALLY_DISABLED while the tally write enable is clear, with
BUSY while the path table holds an entry, and otherwise sets the next serial and the valid flag and is answered OK;
the other fields of the tally stay (part of R155). That run-state control decides before the order is answered is log
entry 14 (DEDUCED), and that the whole finishing waits while the own-access FIFO is full is log entry 11 (DESIGN
CHOICE). -/
def Obligations.TallyOrderAnswered : Prop :=
  ∀ (s : State) (slot : List Byte), s.slotReturns = true → byteAt slot 56 = 1 → byteAt slot 0 = 9 →
    s.cfg.kindEnable.getLsbD 9 = true → (∀ i, 1 ≤ i → i < 56 → ¬(8 ≤ i ∧ i < 12) → byteAt slot i = 0) →
    let free := freePort (begin s)
    let answers (r : ControlResult) (w : State) :=
      ∃ d, exec (.tally slot) s = .next (settle d) ∧ State.finishes (controlFinish s 9 r) (decideRun w) d
    (s.cfg.tallyEnable = false → answers .tallyDisabled free) ∧
    (s.cfg.tallyEnable = true → s.track.path ≠ [] → answers .busy free) ∧
    (s.cfg.tallyEnable = true → s.track.path = [] →
      answers .ok
        { free with tally := { s.tally with nextSerial := BitVec.ofNat 32 (leAt slot 8 4), valid := true } })

/-! ### The controller's own accesses -/

/-- A block that waited for room hands its access over when the FIFO has room: the fetcher finishes its slot, setup
control issues the next read of its fetch, the history the next write of its dump; with a full FIFO, or with nothing
waiting (no finishing, no fetch or one whose reads are all issued, no dump or one whose writes are all issued or that
has failed, no head-word write), nothing happens. When the post-word writeback completes, the slot is no longer in
hand (part of R3, R5, R141). The report unit hands over the head-word write of 0 of a setup acceptance that found no
room (DESIGN CHOICE, log entry 26). That a finishing waits as a whole is log entry 11 (DESIGN CHOICE). -/
def Obligations.HandoverAndWriteback : Prop :=
  ∀ s : State,
    (∀ a, s.pass.granted = some (.own a) → a.kind = .postWrite →
      exec .postWordWritebackComplete s =
        .next
          { s with
            out := []
            pass := { s.pass with granted := none }
            fetch := { s.fetch with inHand := none } }) ∧
    (16 ≤ s.pass.own.length → ∀ b, exec (.ownAccessHandover b) s = .next s) ∧
    (s.pass.own.length < 16 →
      (∀ f, s.fetch.finish = some f →
        ∃ d, exec (.ownAccessHandover .fetcher) s = .next (settle d) ∧ State.finishes f (begin s) d) ∧
      (s.fetch.finish = none → exec (.ownAccessHandover .fetcher) s = .next s) ∧
      (s.setup.fetch = .fetching → s.setup.issued < 64 →
        exec (.ownAccessHandover .setup) s =
          .next
            { s with
              out := []
              pass :=
                { s.pass with
                  own := s.pass.own ++
                    [{ kind := .setupRead s.setup.issued, addr := s.setupBase + 64 * s.setup.issued, len := 64
                       data := [] }] }
              setup := { s.setup with issued := s.setup.issued + 1 } }) ∧
      (s.setup.fetch ≠ .fetching ∨ 64 ≤ s.setup.issued → exec (.ownAccessHandover .setup) s = .next s) ∧
      (∀ d, s.history.dump = some d → d.failed = none → d.issued < (d.snapshot.length + 3) / 4 →
        exec (.ownAccessHandover .history) s =
          .next
            { s with
              out := []
              pass :=
                { s.pass with
                  own := s.pass.own ++
                    [{ kind := .dumpWrite d.issued, addr := d.dest + 64 * d.issued, len := 64
                       data := dumpBytes d.snapshot d.issued }] }
              history := { s.history with dump := some { d with issued := d.issued + 1 } } }) ∧
      (s.history.dump = none → exec (.ownAccessHandover .history) s = .next s) ∧
      (∀ d, s.history.dump = some d → d.failed ≠ none ∨ (d.snapshot.length + 3) / 4 ≤ d.issued →
        exec (.ownAccessHandover .history) s = .next s) ∧
      (s.report.headWaits = false → exec (.ownAccessHandover .report) s = .next s) ∧
      (s.report.headWaits = true →
        exec (.ownAccessHandover .report) s =
          .next
            { s with
              out := []
              pass :=
                { s.pass with
                  own := s.pass.own ++
                    [{ kind := .headWrite 0, addr := s.cfg.controlBase, len := 8, data := [0, 0, 0, 0, 0, 0, 0, 0] }] }
              report := { s.report with headWaits := false } }))

/-- At the decision, with the report unit's writes drained and no slot in hand, a setup is refused with BUSY when the
acceptance conditions fail and otherwise with the reason of the first validation check that fails; the fetch state returns
to IDLE, the copy is discarded, and beside the SETUP record nothing changes (part of R148, R149, R150, R152). -/
def Obligations.SetupRefused : Prop :=
  ∀ (s : State) (r : SetupOutcome), s.setup.fetch = .deciding → s.report.outstanding = none → s.fetch.inHand = none →
    let rest := s.run.state = .unset ∨
      s.run.state = .idle ∧ s.fetch.schedule = [] ∧ s.fetch.openPiece = none ∧ s.track.store = [] ∧ s.track.path = []
    let c := parseSetup s.setup.copy
    let reason : SetupOutcome :=
      if formatOk s.setup.copy = false then .format
      else if regionOk s.setup.base c = false then .region
      else if geometryOk c = false then .geometry
      else if timingOk c = false then .timing
      else .loop
    (¬rest ∧ r = .busy ∨ rest ∧ validate s.setup.base s.setup.copy ≠ none ∧ r = reason) →
      exec .setupDecision s =
        .next
          (handRefusal r (byte (copyByte s.setup.copy 0xFF9))
            { s with out := [], setup := { s.setup with fetch := .idle, copy := [] } })

/-- A setup that passes the acceptance conditions and the validation is put into force in one event: setup, revision
and fetch state; the fetcher's map, next slot and counter; the empty lock table; the ring's indices and the head-word
write of 0 at the FIFO's tail; the expectation list, the debounce state and the gap; the outbound queue with the SETUP
record at its head, counting an open SETUP record that it takes the place of, behind it the records already queued,
and, from UNSET, the STATE record of the change to IDLE folded or appended. P, the latches, the launch counter, the
tally, the memory-error flag, the watch units and the history stay (part of R30, R39, R40, R151, R152, R156). That a
line which serves no station holds a low stable level is the model's placeholder (DESIGN CHOICE, log entry 29). -/
def Obligations.SetupAccepted : Prop :=
  ∀ s : State, s.setup.fetch = .deciding → s.report.outstanding = none → s.fetch.inHand = none →
    (s.run.state = .unset ∨
      s.run.state = .idle ∧ s.fetch.schedule = [] ∧ s.fetch.openPiece = none ∧ s.track.store = [] ∧ s.track.path = []) →
    validate s.setup.base s.setup.copy = none → s.pass.own.length < 16 →
    let c := parseSetup s.setup.copy
    let revision := byte (copyByte s.setup.copy 0xFF9)
    let opened (p : SetupRec) : Queued := { record := .setup p, fixed := false }
    ∃ (d : State) (r : SetupRec) (rest : List Queued), exec .setupDecision s = .next (settle d) ∧
      d.setup = { s.setup with inForce := some c, revision := revision, fetch := .idle, copy := [] } ∧
      d.fetch = { s.fetch with posted := [], next := 0, inHand := none, deferred := false, counter := 0 } ∧
      d.pass =
        { s.pass with
          locks := []
          own := s.pass.own ++
            [{ kind := .headWrite 0, addr := c.controlBase, len := 8, data := [0, 0, 0, 0, 0, 0, 0, 0] }] } ∧
      d.report =
        { s.report with
          queue := d.report.queue, write := 0, head := 0, visible := 0, tail := 0, sinceHead := 0, halted := false
          outstanding := some .head, headWaits := false } ∧
      r = { outcome := .accepted, fetched := revision, inForce := revision, tally := s.tally, count := r.count } ∧
      ((∀ q ∈ s.report.queue, ∀ p, q ≠ opened p) → rest = s.report.queue ∧ r.count = 1) ∧
      (∀ qs rs p, s.report.queue = qs ++ opened p :: rs → (∀ q ∈ qs, ∀ p', q ≠ opened p') →
        rest = qs ++ rs ∧ r.count = min (p.count + 1) 255) ∧
      (s.run.state = .idle → d.report.queue = opened r :: rest) ∧
      (s.run.state = .unset →
        d.report.queue =
          (changeRun .idle none { s with report := { s.report with queue := opened r :: rest } }).report.queue) ∧
      d.expect.items = [] ∧
      (∀ l : Fin 16, d.expect.lines[l].change = none ∧
        (d.expect.lines[l].stable = true ↔
          s.pins.sensors[l] = true ∧ ∃ st, (c.station st).present = true ∧ (c.station st).line = l.val)) ∧
      d.plan = { s.plan with gapMet := true, lastRelease := none } ∧ d.track = { s.track with piece := none } ∧
      d.run = { s.run with state := .idle } ∧
      d.time = s.time ∧ d.image = s.image ∧ d.recover = s.recover ∧ d.watch = s.watch ∧ d.history = s.history ∧
      d.tally = s.tally ∧ d.pins = s.pins ∧ d.out = [] ∧ d.pending = s.pending

/-- The report unit's writes. The record at the head of the queue is handed to the FIFO, 32 bytes to the slot at the
write index, when no write is outstanding, the ring has room, writes are not held and no head-word write is due; from
then on it is in writing. When its write completes OK it leaves the queue, the write index advances, and a WATCH_HIT
record lowers its unit's pending hit by its count. The head-word write of the write index is handed over when it is
due, and the head takes its value; when it completes OK the visible head takes the value written (part of R156, R158,
R159, R160, R170). What the written WATCH_HIT record does to the pending hit follows R170 as the model reads it: the
hit count falls by the record's count and not below 0, and the particulars become those of the unit's next queued
record also when the count reaches 0 (DEDUCED, log entry 23). -/
def Obligations.ReportWrites : Prop :=
  (∀ (s : State) (q : Queued) (qs : List Queued), s.report.queue = q :: qs →
    let may :=
      s.run.state ≠ .unset ∧ s.report.outstanding = none ∧
        (s.report.write + 1) % s.cfg.reportSlots ≠ s.report.tail ∧ s.setup.fetch ≠ .deciding ∧
        s.report.halted = false ∧ ¬(s.report.write ≠ s.report.head ∧ 4 ≤ s.report.sinceHead) ∧ s.pass.own.length < 16
    (may →
      (encodeRecord q.record).length = 32 ∧
      exec .recordWriteIssue s =
        .next
          { s with
            out := []
            pass :=
              { s.pass with
                own := s.pass.own ++
                  [{ kind := .recordWrite, addr := s.cfg.reportBase + 32 * s.report.write, len := 32
                     data := encodeRecord q.record }] }
            report := { s.report with queue := { q with fixed := true } :: qs, outstanding := some .record } }) ∧
    (¬may → exec .recordWriteIssue s = .next s) ∧
    ∀ a, s.pass.granted = some (.own a) → a.kind = .recordWrite → s.report.outstanding = some .record →
      let d : State :=
        { s with
          out := []
          pass := { s.pass with granted := none }
          report :=
            { s.report with
              queue := qs, write := (s.report.write + 1) % s.cfg.reportSlots, sinceHead := s.report.sinceHead + 1
              outstanding := none } }
      ((∀ h, q.record ≠ .watchHit h) → exec .recordWriteComplete s = .next (settle d)) ∧
      ∀ h, q.record = .watchHit h →
        let w := s.watch.unit h.particulars.unit
        exec .recordWriteComplete s =
          .next (settle (setUnit h.particulars.unit
            { w with hits := w.hits - h.hits, first := nextParticulars h.particulars.unit qs } d))) ∧
  ∀ s : State,
    let may :=
      s.run.state ≠ .unset ∧ s.report.outstanding = none ∧ s.setup.fetch ≠ .deciding ∧ s.report.halted = false ∧
        s.report.write ≠ s.report.head ∧
        (s.report.queue = [] ∨ (s.report.write + 1) % s.cfg.reportSlots = s.report.tail ∨ 4 ≤ s.report.sinceHead) ∧
        s.pass.own.length < 16
    (may →
      exec .headWordWriteIssue s =
        .next
          { s with
            out := []
            pass :=
              { s.pass with
                own := s.pass.own ++
                  [{ kind := .headWrite s.report.write, addr := s.cfg.controlBase, len := 8
                     data := toLE 4 s.report.write ++ [0, 0, 0, 0] }] }
            report := { s.report with head := s.report.write, sinceHead := 0, outstanding := some .head } }) ∧
    (¬may → exec .headWordWriteIssue s = .next s) ∧
    ∀ a v, s.pass.granted = some (.own a) → a.kind = .headWrite v →
      exec .headWordWriteComplete s =
        .next
          { s with
            out := []
            pass := { s.pass with granted := none }
            report := { s.report with visible := v, outstanding := none } }

/-- An own access that completes with ERROR sets the memory-error flag and has its block's effect: a slot read or a
writeback ends the slot in hand and keeps the map, a record or head-word write halts the report unit with its record
at the head of the queue; then, for all but a setup fetch read, it hands the stop cause MEMORY, which stops the
controller from IDLE, STARTING, RUNNING and DRAINING. A failed setup read only counts and marks the fetch (part of R6,
R143, R147, R164). That the block's part comes before the stop is log entry 15 (DEDUCED), and that the failed record
stays in writing, its contents fixed, is log entry 24 (DEDUCED). -/
def Obligations.OwnAccessFails : Prop :=
  (∀ d : State,
    let stops := d.run.state = .idle ∨ d.run.state = .starting ∨ d.run.state = .running ∨ d.run.state = .draining
    (stops → (stopAtP .memory d).run.state = .stopped) ∧ (¬stops → stopAtP .memory d = d) ∧
      stopAtP .memory d = stop .memory none d.time.pos none none d) ∧
  ∀ (s : State) (a : OwnAccess), s.pass.granted = some (.own a) →
    let free : State := { s with out := [], pass := { s.pass with granted := none, memError := true } }
    (a.kind = .slotRead ∨ a.kind = .postWrite →
      exec .ownAccessError s = .next (settle (stopAtP .memory { free with fetch := { s.fetch with inHand := none } }))) ∧
    (a.kind = .recordWrite ∨ (∃ v, a.kind = .headWrite v) →
      exec .ownAccessError s =
        .next (settle (stopAtP .memory { free with report := { s.report with halted := true, outstanding := none } }))) ∧
    (∀ k p, a.kind = .dumpWrite k → s.history.dump = some p →
      ∃ d, exec .ownAccessError s = .next (settle (stopAtP .memory d)) ∧
        let p' := { p with done := p.done + 1, failed := some (p.failed.getD k) }
        d = if p.done + 1 = p.issued then endDump p' free
          else { free with history := { s.history with dump := some p' } }) ∧
    (∀ k, a.kind = .setupRead k → s.setup.fetch = .fetching → s.setup.done + 1 < 64 →
      exec .ownAccessError s =
        .next (settle
          { free with
            setup := { s.setup with copy := s.setup.copy ++ [[]], done := s.setup.done + 1, failed := true } })) ∧
    (∀ k, a.kind = .setupRead k → s.setup.fetch = .fetching → 64 ≤ s.setup.done + 1 →
      exec .ownAccessError s =
        .next (settle (handRefusal .memory 0
          { free with
            setup := { s.setup with copy := [], done := s.setup.done + 1, failed := true, fetch := .idle } })))

/-! ### The timebase -/

/-- A pulse on ENC in encoder mode sets the silence count to 0 and is one count of travel: P advances by one, unless an
item due at P waits to be taken, in which case the count is owed. In estimate mode P stands and the first pulse hands the
RESTORED record with the estimate tick count (part of R21, R50, R54; the counts owed are the model's own, log entry 2). -/
def Obligations.EncoderPulse : Prop :=
  ∀ s : State,
    (s.time.estimate = false →
      exec .encPulse s =
        .next (moveP
          { s with out := [], time := { s.time with pulsed := true, silence := 0, owed := s.time.owed + 1 } })) ∧
    (s.time.estimate = false → s.time.owed = 0 → s.somethingDue = false →
      exec .encPulse s =
        .next { s with out := [], time := { s.time with pos := s.time.pos + 1, pulsed := true, silence := 0 } }) ∧
    (s.time.estimate = false → s.somethingDue = true →
      exec .encPulse s =
        .next { s with out := [], time := { s.time with pulsed := true, silence := 0, owed := s.time.owed + 1 } }) ∧
    (s.time.estimate = true → s.time.restored = false →
      exec .encPulse s =
        .next (handRecord (.timebase { restored := true, amount := s.time.estTicks, pos := s.time.pos })
          { s with out := [], time := { s.time with pulsed := true, restored := true } })) ∧
    (s.time.estimate = true → s.time.restored = true →
      exec .encPulse s = .next { s with out := [], time := { s.time with pulsed := true } })

/-- What a tick counts when it neither expires the start timer nor declares a loss: the start timer, and the silence
count when the watch condition holds and no pulse has come since the last tick; in estimate mode the accumulator takes
the rate, keeps the remainder of its division by 16, the quotient is travel, and the estimate tick count rises up to
65,535 (part of R41, R50, R53). That travel is taken in as counts owed, which P then reaches one by one, is the
model's own (DESIGN CHOICE, log entry 2). -/
def Obligations.TickCounts : Prop :=
  ∀ s : State, s.timerExpires = false → s.declaresLoss = false →
    let watch := (s.run.state = .running ∨ s.run.state = .draining) ∧ s.pins.tready = true ∧ s.time.estimate = false
    let silence := if watch ∧ s.time.pulsed = false then s.time.silence + 1 else s.time.silence
    let counted : State :=
      { s with
        out := []
        run := { s.run with timer := s.run.timer.map (· + 1) }
        time := { s.time with pulsed := false, silence := silence } }
    (s.time.estimate = false → exec .tick s = .next (settle counted)) ∧
    (s.time.estimate = true →
      exec .tick s =
        .next (settle (moveP
          { counted with
            time :=
              { counted.time with
                acc := (s.time.acc + s.cfg.estRate) % 16
                estTicks := min (s.time.estTicks + 1) 65535
                owed := s.time.owed + (s.time.acc + s.cfg.estRate) / 16 } })))

/-- The tick on which the silence count reaches the loss limit, with the watch condition holding and no pulse since
the last tick, declares encoder loss. With loss action STOP it is the stop ENCODER_LOST at P; with DRAIN the timebase
enters estimate mode from P, the expectations take doubled late tolerances, LOST is recorded with P and the rate, and
RUNNING becomes DRAINING. The tick on which the start timer has counted 100 times the start limit is the stop
TRANSPORT_START at P. On no other tick does either command occur (part of R26, R41, R42, R43, R50, R51). That TICK is
either command on such a tick, and that P does not advance by estimate on the tick that declares the loss, is the
model's reading (DEDUCED, log entry 8). -/
def Obligations.DeclaringTicks : Prop :=
  ∀ s : State,
    let declares := (s.run.state = .running ∨ s.run.state = .draining) ∧ s.pins.tready = true ∧
      s.time.estimate = false ∧ s.time.pulsed = false ∧ s.cfg.lossLimit ≤ s.time.silence + 1
    let counted : State :=
      { s with
        out := []
        run := { s.run with timer := s.run.timer.map (· + 1) }
        time := { s.time with pulsed := false, silence := 0 } }
    (¬declares → exec .encoderLoss s = .next s) ∧
    (declares → s.cfg.lossAction = .stop →
      exec .encoderLoss s = .next (settle (stop .encoderLost none s.time.pos none none counted)) ∧
        exec .tick s = exec .encoderLoss s) ∧
    (declares → s.cfg.lossAction = .drain →
      exec .tick s = exec .encoderLoss s ∧
      ∃ d : State, d.expect.items.Perm (s.expect.items.map Item.widen) ∧
        (d = handRecord (.timebase { restored := false, amount := s.cfg.estRate, pos := s.time.pos })
          { counted with
            time := { counted.time with estimate := true, acc := 0, estTicks := 0, restored := false }
            expect := { s.expect with items := d.expect.items } }) ∧
        exec .encoderLoss s =
          .next (settle (if s.run.state = .running then changeRun .draining none d else d))) ∧
    ∀ n, s.run.timer = some n →
      let expires := s.run.state = .starting ∧ 100 * s.cfg.startLimit ≤ n + 1
      (¬expires → exec .startTimerExpiry s = .next s) ∧
      (expires →
        exec .tick s = exec .startTimerExpiry s ∧
        exec .startTimerExpiry s =
          .next (settle (stop .transportStart none s.time.pos none none
            { s with
              out := []
              run := { s.run with timer := some (n + 1) }
              time := { s.time with pulsed := false } })))

/-! ### Lines -/

/-- TREADY and COVER. TREADY rising ends STARTING in RUNNING, or DRAINING with the standby latch set, and is only noted in
any other state; falling, it is the stop TRANSPORT_LOST in RUNNING and DRAINING. COVER rising is noted and the start
condition is taken up again; falling, it is the stop COVER_OPEN in STARTING, RUNNING and DRAINING. The level of a TRAYRDY
or STKFULL line is the planner's from the event of its change on (part of R41 to R44, R57, R60). -/
def Obligations.InputLines : Prop :=
  ∀ s : State,
    (s.pins.tready = false →
      let up : State := { s with out := [], pins := { s.pins with tready := true } }
      (s.run.state ≠ .starting → exec .treadyRise s = .next (settle up)) ∧
      (s.run.state = .starting →
        exec .treadyRise s =
          .next (settle (changeRun (if s.run.standby then .draining else .running) none
            { up with run := { s.run with timer := none } })))) ∧
    (s.pins.tready = true →
      let down : State := { s with out := [], pins := { s.pins with tready := false } }
      (s.run.state = .running ∨ s.run.state = .draining →
        exec .treadyFall s = .next (settle (stop .transportLost none s.time.pos none none down))) ∧
      (s.run.state ≠ .running → s.run.state ≠ .draining → exec .treadyFall s = .next (settle down))) ∧
    (s.pins.cover = false →
      exec .coverRise s = .next (settle { s with out := [], pins := { s.pins with cover := true } })) ∧
    (s.pins.cover = true →
      let down : State := { s with out := [], pins := { s.pins with cover := false } }
      (s.run.state = .starting ∨ s.run.state = .running ∨ s.run.state = .draining →
        exec .coverFall s = .next (settle (stop .coverOpen none s.time.pos none none down))) ∧
      (s.run.state ≠ .starting → s.run.state ≠ .running → s.run.state ≠ .draining →
        exec .coverFall s = .next (settle down))) ∧
    ∀ level,
      (∀ tray : Fin 4, s.pins.trayrdy[tray] ≠ level →
        exec (.trayrdyChange tray level) s =
          .next (settle { s with out := [], pins := { s.pins with trayrdy := s.pins.trayrdy.set tray level } })) ∧
      (s.pins.stkfullA ≠ level →
        exec (.stkfullChange .a level) s =
          .next (settle { s with out := [], pins := { s.pins with stkfullA := level } })) ∧
      (s.pins.stkfullB ≠ level →
        exec (.stkfullChange .b level) s =
          .next (settle { s with out := [], pins := { s.pins with stkfullB := level } }))

/-- Which stop cause stops in which run states (the table of R43), and what it does there. The run state becomes
STOPPED; start timer, expectation list, staged entry, gap, last release and current side go; the snapshot takes the
cause's particulars and is locked; the latches, P, the loop FIFO, the commitment, the lock table, the open piece
record and the tally stay. Every entry stays in the path table, detached, an attached one with reason AT_EXIT when
EXITING and STOP otherwise. Behind the STATE record stand the FAULT record with the number of entries, one
SHEET_SPOILED record for each entry in table order, and, when the stop spoils an attached entry of an uncommitted
retained piece in PIECE mode, PIECE_VOID, the store and the stacker piece record then being empty; the watch units'
records, whose place among these is log entry 36, are set aside. A detached entry without a reason, which no run
reaches, is reported with STOP (log entry 22). The sheets of the attached entries and of a broken piece are back in
the schedule queue, each at its place by sequence. The history takes a SPOIL entry for each entry of the path table
and then the STOP entry with the particulars of the snapshot, each showing STOPPED; a FREEZE that a SPOIL event fires
ends it behind that event's entry. That SPOIL and STOP entries are dated by the snapshot and SPOIL names no station is
log entry 12 (DEDUCED), and that STOP carries no acceptance sequence is log entry 45 (DESIGN CHOICE). In any other
state the cause is nothing (part of R37, R43, R70, R95, R105, R111, R113, R116 to R119, R121, R122, R171). -/
def Obligations.StopHaltsAndReports : Prop :=
  ∀ (cause : StopCause) (station : Option Station) (pos : Pos) (launch : Option Launch) (serial : Option Serial)
    (s : State),
    let t := stop cause station pos launch serial s
    let snap : Snapshot :=
      { cause := cause, station := station, pos := pos, serial := serial, launch := launch, former := s.run.state }
    let stops : Prop :=
      match cause with
      | .early | .late | .stray | .short | .long | .transportLost | .encoderLost =>
        s.run.state = .running ∨ s.run.state = .draining
      | .transportStart => s.run.state = .starting
      | .coverOpen => s.run.state = .starting ∨ s.run.state = .running ∨ s.run.state = .draining
      | .encoderDrained => s.run.state = .draining
      | .memory =>
        s.run.state = .idle ∨ s.run.state = .starting ∨ s.run.state = .running ∨ s.run.state = .draining
    let open' (r : Record) : Queued := { record := r, fixed := false }
    let reason (e : PathEntry) : SpoilReason :=
      if e.sheet.isSome then (if e.phase = .exiting then .atExit else .stop) else e.reason.getD .stop
    let reports :=
      withoutHits (changeRun .stopped (some cause) s).report.queue ++
        open' (.fault { snapshot := snap, spoiled := s.track.path.length, estimate := s.time.estimate }) ::
          s.track.path.map fun e =>
            open' (.sheetSpoiled
              { seq := e.ident.seq, piece := e.ident.piece, index := e.ident.index, last := e.ident.last
                tag := e.ident.tag, serial := e.serial, launch := e.launch, leg := e.leg, blank := e.blank
                reason := reason e, place := none, pos := pos })
    let path :=
      s.track.path.map fun e => if e.sheet.isSome then { e with sheet := none, reason := some (reason e) } else e
    let breaks (h : LogicalSheet) (p : StackerPiece) :=
      s.cfg.recovery = .piece ∧ s.track.store.head? = some h ∧ s.track.piece = some p ∧ p.committed = false ∧
        ∃ e ∈ s.track.path, e.sheet ≠ none ∧ e.ident.piece = p.piece ∧
          e.ident.seq = h.seq + BitVec.ofNat 24 e.ident.index - 1
    let newest (entries : List HistEntry) := entries.drop (entries.length - 32)
    let entry (kind : HistKind) (station : Option Station) (serial : Option Serial) (seq : Option Seq)
        (launch : Option Launch) : HistEntry :=
      { kind := kind, station := station, serial := serial, seq := seq, launch := launch, pos := pos
        runState := .stopped }
    let spoils :=
      s.track.path.map fun e => entry (.spoil (reason e)) none e.serial (some e.ident.seq) (some e.launch)
    (¬stops → t = s) ∧ s.holdsSame t ∧ (s.sheetsInOrder → t.sheetsInOrder) ∧
    (stops → s.recover.lock = false →
      t.run.state = .stopped ∧ t.run.timer = none ∧ t.run.standby = s.run.standby ∧
      (s.run.hold = true → t.run.hold = true) ∧
      t.expect = { s.expect with items := [] } ∧
      t.plan = { s.plan with staged := none, gapMet := true, lastRelease := none, lastStacker := none } ∧
      t.image = { s.image with current := none } ∧
      t.recover = { snapshot := some snap, lock := true } ∧
      t.pass = s.pass ∧ t.fetch = { s.fetch with schedule := t.fetch.schedule } ∧
      t.tally = s.tally ∧ t.time = s.time ∧ t.setup = s.setup ∧ t.pins = s.pins ∧
      t.history.dump = s.history.dump ∧ (s.history.frozen = true → t.history = s.history) ∧
      (t.history.frozen = false →
        t.history.entries = newest (s.history.entries ++ spoils ++ [entry (.stop cause) station serial none launch])) ∧
      (s.history.frozen = false → t.history.frozen = true →
        ∃ k, 1 ≤ k ∧ k ≤ spoils.length ∧ t.history.entries = newest (s.history.entries ++ spoils.take k)) ∧
      ((¬∃ h p, breaks h p) →
        t.track = { s.track with path := path } ∧ withoutHits t.report.queue = reports) ∧
      ∀ h p, breaks h p →
        t.track = { s.track with path := path, store := [], piece := none } ∧
        withoutHits t.report.queue =
          reports ++
            [open' (.pieceVoid
              { piece := p.piece, count := s.track.store.length, first := p.firstSerial, last := p.lastSerial })])

/-- The raw level of a line changes. A line that serves no station is only noted. On a station's line a level away from
the stable one opens a pending change stamped P, which completes at once without debounce; a level back at the stable one
abandons the pending change, and an expectation whose expiry it held then expires at once, dated at its expiry position
(part of R24, R29, R30, R36). Of several held expiries the first in the list is the one (DESIGN CHOICE, log entry 33). -/
def Obligations.SensorLineChanges : Prop :=
  ∀ (s : State) (l : Fin 16) (level : Bool), s.pins.sensors[l] ≠ level →
    let seen : State := { s with out := [], pins := { s.pins with sensors := s.pins.sensors.set l level } }
    let line := s.expect.lines[l]
    let closed : State :=
      { seen with expect := { s.expect with lines := s.expect.lines.set l { stable := line.stable, change := none } } }
    let held (st : Station) (i : Item) := (i.awaits st .le = true ∨ i.awaits st .te = true) ∧ s.reached i.due = true ∧
      s.holdsExpiry i = true
    (s.stationOf l = none → exec (.sensorLevelChange l level) s = .next seen) ∧
    ∀ st, s.stationOf l = some st →
      (line.change = none → level = line.stable → exec (.sensorLevelChange l level) s = .next (settle seen)) ∧
      (line.change = none → level ≠ line.stable → s.cfg.debounce ≠ 0 →
        exec (.sensorLevelChange l level) s =
          .next (settle
            { seen with
              expect :=
                { s.expect with
                  lines :=
                    s.expect.lines.set l
                      { stable := line.stable, change := some { level := level, stamp := s.time.pos } } } })) ∧
      (line.change = none → level ≠ line.stable → s.cfg.debounce = 0 →
        exec (.sensorLevelChange l level) s =
          .next (settle (offerEdge (if level then .le else .te) st s.time.pos
            { seen with
              expect := { s.expect with lines := s.expect.lines.set l { stable := level, change := none } } }))) ∧
      (line.change ≠ none → (∀ i ∈ s.expect.items, ¬held st i) →
        exec (.sensorLevelChange l level) s = .next (settle closed)) ∧
      ∀ pre i post la e, line.change ≠ none → s.expect.items = pre ++ i :: post → (∀ j ∈ pre, ¬held st j) → held st i →
        i.kind = .edge la st e →
        exec (.sensorLevelChange l level) s =
          .next (settle (stop (match e with | .le => .late | .te => .long) (some st) i.due (some la)
            ((s.entry? la).bind PathEntry.serial) { closed with expect := { closed.expect with items := pre ++ post } }))

/-- A pending change completes: the stable level follows. Outside RUNNING and DRAINING the edge is discarded; a
leading edge that no expectation awaits is STRAY, a trailing one is ignored; an edge goes to the first claimant, which
it meets in the window, or before it in estimate mode, and otherwise before it the edge is EARLY or SHORT. The first
claimant is the one whose window opens earliest by the half-range rule, at equal opening the one with the earlier
launch number (part of R23, R25, R26, R29 to R32, R36). That the LE event of a met edge is offered to the watch units
ahead of the tracker's work and of the release of that event is log entries 41 and 42 (DESIGN CHOICE). That another
expectation whose expiry the same change held is held no longer is log entry 46 (DESIGN CHOICE). -/
def Obligations.DebounceCompletes : Prop :=
  (∀ (s : State) (l : Fin 16) (st : Station) (ch : PendingChange), s.stationOf l = some st →
    s.expect.lines[l].change = some ch → s.reached (plus ch.stamp s.cfg.debounce) = true →
    let d : State :=
      { s with
        out := []
        expect := { s.expect with lines := s.expect.lines.set l { stable := ch.level, change := none } } }
    let e : Edge := if ch.level then .le else .te
    let claimants := s.expect.items.filter (Item.awaits st e)
    let answers (t : State) := exec (.debounceCompletion l) s = .next (settle t)
    (s.moving = false → answers d) ∧
    (s.moving = true → claimants = [] →
      (e = .le → answers (stop .stray (some st) ch.stamp none none d)) ∧ (e = .te → answers d)) ∧
    ∀ it x la, s.moving = true → firstClaimant claimants = some it → it.kind = .edge la st e → s.entry? la = some x →
      let met : State := { d with expect := { d.expect with items := d.expect.items.erase it } }
      ((it.inWindow ch.stamp = true ∨ before ch.stamp it.opens = true ∧ s.time.estimate = true) →
        (e = .le → answers (metLE x st ch.stamp met)) ∧ (e = .te → answers (metTE x st ch.stamp met))) ∧
      (it.inWindow ch.stamp = false → before ch.stamp it.opens = true → s.time.estimate = false →
        answers (stop (match e with | .le => .early | .te => .short) (some st) ch.stamp (some x.launch) x.serial d))) ∧
  ∀ (claimants : List Item) (it : Item) (st : Station) (e : Edge) (la : Launch), it ∈ claimants → it.kind = .edge la st e →
    (∀ j ∈ claimants, j ≠ it →
      (j.opens ≠ it.opens ∧ (j.opens - it.opens).toNat < 8388608) ∨
        j.opens = it.opens ∧ ∃ lj, j.kind = .edge lj st e ∧ 1 ≤ (lj - la).toNat ∧ (lj - la).toNat ≤ 32767) →
    firstClaimant claimants = some it

/-! ### Items that fall due -/

/-- Taking an item that is due. An expiry is the stop LATE or LONG of its entry, dated at the item's due position;
PARK makes the entry PARKED; the gap wait makes the gap MET; the idle wait lets RUNNING and DRAINING fall to IDLE.
Each leaves the list. With every item of its kind not yet reached, or its expiry held, the command does not occur. An
expiry is held exactly while the station's line has a pending change of the expected kind that is stamped in the
window (part of R23 to R25, R34, R36, R45, R69, R81). That a command which does not occur answers the state as it was
is log entry 7. That an expectation held by a change whose edge met another one is held no longer, and is then due, is
log entry 46 (DESIGN CHOICE). -/
def Obligations.DueItemsTaken : Prop :=
  ∀ s : State,
    (∀ (pre post : List Item) (it : Item), s.expect.items = pre ++ it :: post → (∀ i ∈ pre, i.kind ≠ it.kind) →
      s.reached it.due = true → s.holdsExpiry it = false →
      let d : State := { s with out := [], expect := { s.expect with items := pre ++ post } }
      (∀ l st e, it.kind = .edge l st e →
        exec (.expectationExpiry l st e) s =
          .next (settle (stop (match e with | .le => .late | .te => .long) (some st)
            (it.pos + BitVec.ofNat 24 it.late + 1) (some l) ((s.entry? l).bind PathEntry.serial) d))) ∧
      (∀ l x, it.kind = .park l → s.entry? l = some x →
        exec (.park l) s =
          .next (settle
            { d with
              track :=
                { s.track with
                  path := s.track.path.map fun e => if e.launch = l then { e with phase := .parked } else e } })) ∧
      (it.kind = .gap → exec .gapWait s = .next (settle { d with plan := { s.plan with gapMet := true } })) ∧
      (it.kind = .idle → s.run.state = .running ∨ s.run.state = .draining →
        exec .idleWait s = .next (settle (changeRun .idle none d)))) ∧
    (∀ k : ItemKind, (∀ i ∈ s.expect.items, i.kind = k → s.reached i.due = false ∨ s.holdsExpiry i = true) →
      match k with
      | .edge l st e => exec (.expectationExpiry l st e) s = .next s
      | .div l => exec (.div l) s = .next s
      | .park l => exec (.park l) s = .next s
      | .top l => exec (.top l) s = .next s
      | .check l => exec (.underrunCheck l) s = .next s
      | .gap => exec .gapWait s = .next s
      | .idle => exec .idleWait s = .next s) ∧
    ∀ i : Item, s.holdsExpiry i = true ↔
      ∃ la st e, i.kind = .edge la st e ∧
        ∃ (n : Fin 16) (ch : PendingChange), (s.cfg.station st).line = n.val ∧ s.expect.lines[n].change = some ch ∧
          (ch.level = true ↔ e = .le) ∧
          (ch.stamp - (i.pos - BitVec.ofNat 24 i.early)).toNat ≤ i.early + i.late

/-- A DIV event decides the route: PURGE for a detached entry, LOOP for the first leg of a duplex sheet, its output in
every other case. It sets the DIV-taken flag and DIVSEL, and changes the jog line of the stacker that an attached entry of
index 1 is routed to when the jog enable is set; with the FUSE LE met, the terminal expectation is armed (part of R78,
R80). The jog lines change in no other event: they are low after either kind of reset, keep their levels over every other
command, setup acceptance among them, and with the jog enable clear no DIV changes them (R79). -/
def Obligations.DivRoutes : Prop :=
  (∀ (c : Instr) (s t : State), exec c s = .next t →
    (isReset c = true → t.track.jogA = false ∧ t.track.jogB = false) ∧
    (isReset c = false → (∀ l, c ≠ .div l) ∨ s.cfg.jogEnable = false →
      t.track.jogA = s.track.jogA ∧ t.track.jogB = s.track.jogB)) ∧
  ∀ (s : State) (pre post : List Item) (it : Item) (l : Launch) (x : PathEntry),
    s.expect.items = pre ++ it :: post → (∀ i ∈ pre, i.kind ≠ it.kind) → it.kind = .div l → s.reached it.pos = true →
    s.entry? l = some x →
    let r : Route :=
      match x.sheet with
      | none => .purge
      | some y => if x.leg = .first ∧ y.plex = .duplex then .loop else (match y.output with | .a => .stka | .b => .stkb)
    let jogs := s.cfg.jogEnable = true ∧ x.sheet ≠ none ∧ x.ident.index = 1
    let d : State :=
      { s with
        out := []
        expect := { s.expect with items := pre ++ post }
        track :=
          { s.track with
            path := s.track.path.map fun e => if e.launch = l then { e with route := some r, divTaken := true } else e
            divsel := r
            jogA := if jogs ∧ r = .stka then !s.track.jogA else s.track.jogA
            jogB := if jogs ∧ r = .stkb then !s.track.jogB else s.track.jogB } }
    exec (.div l) s = .next (settle (if x.fuseReached then armTerminal x r d else d))

/-- A TOP event makes the side of the leg current, with its mark when the mark is enabled and the side has a mark offset,
presents it on the side port, strobes TOP and arms the underrun check, all dated by the event's own position; then it is
entered and offered as a sheet event. The underrun check ends the current side: a side read to its raster's end is done
and nothing else changes, any other is an underrun of its entry, dated by the check's own position (part of R34, R99,
R101, R102, R104). -/
def Obligations.SideImagedAndChecked : Prop :=
  (∀ (s : State) (pre post : List Item) (it : Item) (l : Launch) (x : PathEntry) (y : LogicalSheet) (side : Side)
    (r : SideRec),
    s.expect.items = pre ++ it :: post → (∀ i ∈ pre, i.kind ≠ it.kind) → it.kind = .top l → s.reached it.pos = true →
    s.entry? l = some x → x.sheet = some y →
    (x.leg = .first ∧ side = .front ∧ r = y.front ∨ x.leg = .second ∧ side = .back ∧ y.back = some r) →
    let mark : Option Mark :=
      if s.cfg.markEnable then
        r.mark.map fun m =>
          { offset := m, bytes := expandMark (markValue (x.serial.getD 0) x.ident.index x.ident.last side) }
      else none
    exec (.top l) s =
      .next (settle (sheetEvent .top (.top side) none x it.pos
        { s with
          out := [.top]
          image :=
            { current :=
                some
                  { launch := l, side := side, base := r.base, len := r.len, stride := r.stride, mark := mark
                    topPos := it.pos, progress := 0 }
              port := { base := r.base, len := r.len, stride := r.stride } }
          expect :=
            { s.expect with
              items :=
                insertItem
                  { kind := .check l, pos := it.pos + BitVec.ofNat 24 r.image + BitVec.ofNat 24 s.cfg.margin
                    early := 0, late := 0 }
                  (pre ++ post) } }))) ∧
  ∀ (s : State) (pre post : List Item) (it : Item) (l : Launch) (x : PathEntry) (c : CurrentSide),
    s.expect.items = pre ++ it :: post → (∀ i ∈ pre, i.kind ≠ it.kind) → it.kind = .check l →
    s.reached it.pos = true → s.entry? l = some x → s.image.current = some c → c.launch = l →
    let d : State :=
      { s with
        out := [], expect := { s.expect with items := pre ++ post }, image := { s.image with current := none } }
    (c.len ≤ c.progress → exec (.underrunCheck l) s = .next (settle d)) ∧
    (c.progress < c.len → exec (.underrunCheck l) s = .next (settle (underrun x c.side it.pos d)))

/-! ### The path -/

/-- What a met edge does to its entry. It is first entered in the history and offered as a sheet event. A leading edge
at REG brings the entry to the gate from FEEDING and REFEEDING; XFER arms the FUSE LE from the release position;
LOOPIN makes it PARKING and an exit EXITING, with the trailing edge expected its length later; FUSE sets its flag with
its own trailing edge and, once the route is decided, arms the terminal LE from the release position. A leg's LE whose
expiry position is reached when it is armed expires at once unless its expiry is held. A trailing edge at LOOPIN arms
PARK, or parks at one already reached; at LOOPOUT the head of the loop leaves it and U falls by its length plus the
loop gap; at an exit a detached entry is reported with its reason, enters the history as SPOIL and leaves the path
with its items. The feed stations, and LOOPOUT at a leading edge, change nothing, no more than a trailing edge at
XFER, REG or FUSE (part of R25, R35, R64, R75 to R77, R80 to R83, R93 to R96). The watch units' records, whose place
among these is log entry 35, are set aside. That the edge is entered and offered ahead of the tracker's work, also
where that work brings a stop, is log entries 35 and 41 (DESIGN CHOICE), and what the history entries carry beyond
R171's words is log entry 12 (DEDUCED). -/
def Obligations.MetEdgesAdvanceEntries : Prop :=
  ∀ (s : State) (e : PathEntry) (q : Pos),
    let event (k : SheetEventKind) (h : HistKind) (st : Station) : State :=
      offer
        (.sheet
          { kind := k, station := some st, piece := e.ident.piece, launch := e.launch, seq := some e.ident.seq
            serial := e.serial })
        (appendHist h (some st) e.serial (some e.ident.seq) (some e.launch) q s)
    let late (n : Nat) := if s.time.estimate then min (2 * n) 65535 else n
    let entered (f : PathEntry → PathEntry) : State :=
      { s with track := { s.track with path := s.track.path.map fun x => if x.launch = e.launch then f x else x } }
    let phased (p : Phase) : State := entered fun x => { x with phase := p }
    let expects (i : Item) (t : State) : State :=
      { t with expect := { t.expect with items := insertItem i t.expect.items } }
    let tail (st : Station) : Item :=
      { kind := .edge e.launch st .te, pos := q + BitVec.ofNat 24 e.ident.length, early := s.cfg.trailTol
        late := late s.cfg.trailTol }
    let arms (st : Station) (r : Pos) (distance : Nat) (u t : State) :=
      let i : Item :=
        { kind := .edge e.launch st .le, pos := r + BitVec.ofNat 24 distance, early := (s.cfg.station st).early
          late := late (s.cfg.station st).late }
      (∀ j ∈ u.expect.items, j.kind ≠ i.kind) →
        ((s.reached i.due = false ∨ s.holdsExpiry i = true) → t = expects i u) ∧
        (s.reached i.due = true → s.holdsExpiry i = false →
          t = stop .late (some st) i.due (some e.launch) ((u.entry? e.launch).bind PathEntry.serial) u)
    let fused := expects (tail .fuse) (entered fun x => { x with fuseReached := true })
    let terminal (r : Route) : Station × Nat :=
      match r with
      | .loop => (.loopin, s.cfg.dLi)
      | .stka => (.stka, s.cfg.dA)
      | .stkb => (.stkb, s.cfg.dB)
      | .purge => (.purge, s.cfg.dP)
    (∀ st, metLE e st q s = trackLE e st q (event .le .le st) ∧ metTE e st q s = trackTE e st q (event .te .te st)) ∧
    (e.phase = .feeding ∨ e.phase = .refeeding → trackLE e .reg q s = phased .atGate) ∧
    (∀ r, e.releasePos = some r → arms .fuse r s.cfg.dF s (trackLE e .xfer q s)) ∧
    trackLE e .loopin q s = expects (tail .loopin) (phased .parking) ∧
    trackLE e .stka q s = expects (tail .stka) (phased .exiting) ∧
    trackLE e .stkb q s = expects (tail .stkb) (phased .exiting) ∧
    trackLE e .purge q s = expects (tail .purge) (phased .exiting) ∧
    (e.divTaken = false → trackLE e .fuse q s = fused) ∧
    (∀ r d, e.divTaken = true → e.releasePos = some r → e.route = some d →
      arms (terminal d).1 r (terminal d).2 fused (trackLE e .fuse q s)) ∧
    (∀ st ∈ [Station.feed1, .feed2, .feed3, .feed4, .loopout], trackLE e st q s = s) ∧
    (e.phase = .parking →
      let p := q + BitVec.ofNat 24 s.cfg.dSettle
      (s.reached p = true → trackTE e .loopin q s = phased .parked) ∧
        (s.reached p = false →
          trackTE e .loopin q s = expects { kind := .park e.launch, pos := p, early := 0, late := 0 } s)) ∧
    (∀ ls, s.track.loop = e.launch :: ls →
      trackTE e .loopout q s =
        { s with
          track := { s.track with loop := ls }
          plan := { s.plan with commitment := s.plan.commitment - (e.ident.length + s.cfg.loopGap) } }) ∧
    (∀ st ∈ [Station.feed1, .feed2, .feed3, .feed4, .reg, .xfer, .fuse], trackTE e st q s = s) ∧
    ∀ st ∈ [Station.stka, .stkb, .purge], ∀ reason, e.sheet = none → e.reason = some reason →
      let t := trackTE e st q s
      withoutHits t.report.queue =
        withoutHits s.report.queue ++
          [{ record :=
               .sheetSpoiled
                 { seq := e.ident.seq, piece := e.ident.piece, index := e.ident.index, last := e.ident.last
                   tag := e.ident.tag, serial := e.serial, launch := e.launch, leg := e.leg, blank := e.blank
                   reason := reason, place := some st, pos := q }
             fixed := false }] ∧
      t.track =
        { s.track with path := s.track.path.filter (·.launch != e.launch), loop := s.track.loop.erase e.launch } ∧
      t.expect = { s.expect with items := s.expect.items.filter (·.kind.launch? != some e.launch) } ∧
      t.tally = s.tally ∧ t.pass = s.pass ∧ t.fetch = s.fetch ∧
      t.history.entries =
        (s.history.remembering
          { kind := .spoil reason, station := some st, serial := e.serial, seq := some e.ident.seq
            launch := some e.launch, pos := q, runState := s.run.state }).entries

/-- At each delivery the tally's delivered count rises by one modulo 2^32, its last delivered serial becomes the print's
serial, and with the last-in-piece flag its last completed piece id becomes the sheet's; valid flag and next serial stay;
in both recovery modes. A system reset keeps the tally and a power-on reset zeroes it (R86). Beside R86: the stacker piece
record follows the delivery and is empty after a last sheet; the entry leaves the path with its items; and the sheet is
RELEASED in SHEET mode; in PIECE mode RETAINED in the store, COMMITTED together with a store of 32 and one by one from then
on, or as the last of its piece released with the whole store as PIECE_COMPLETE. The sheets released lose their lock table
entries, and one SHEET_DONE record names the disposition and their count (part of R75, R84, R85, R87, R88, R90 to R92). The
watch units' records, whose place is log entry 35, are set aside. -/
def Obligations.DeliveryCountsAndCompletes : Prop :=
  (∀ (s : State) (e : PathEntry) (x : LogicalSheet) (k : Stacker) (q : Pos) (v : Serial), e.sheet = some x →
    e.serial = some v →
    let t := metTE e (match k with | .a => .stka | .b => .stkb) q s
    let store := s.track.store
    let fresh : StackerPiece :=
      { piece := x.piece, count := 1, firstSerial := v, lastSerial := v, committed := false }
    let counted : StackerPiece :=
      match s.track.piece with
      | none => fresh
      | some r => if x.index = 1 ∨ r.piece ≠ x.piece then fresh else { r with count := r.count + 1, lastSerial := v }
    let ends (d : Disposition) (released : List LogicalSheet) (kept : List LogicalSheet) (committed : Bool) :=
      t.track =
        { s.track with
          path := s.track.path.filter (·.launch != e.launch), loop := s.track.loop.erase e.launch, store := kept
          piece := if x.last then none else some { counted with committed := committed } } ∧
      t.pass = { s.pass with locks := s.pass.locks.filter fun y => released.all fun z => z.seq != y.seq } ∧
      withoutHits t.report.queue =
        withoutHits s.report.queue ++
          [{ record :=
               .sheetDone
                 { seq := x.seq, piece := x.piece, index := x.index, last := x.last, tag := x.tag, serial := some v
                   launch := e.launch, output := k, pos := q, disposition := d, released := released.length }
             fixed := false }]
    t.tally =
      { s.tally with
        delivered := s.tally.delivered + 1, lastSerial := v
        lastPiece := if x.last then x.piece else s.tally.lastPiece } ∧
    t.expect = { s.expect with items := s.expect.items.filter (·.kind.launch? != some e.launch) } ∧
    t.fetch = s.fetch ∧
    (s.cfg.recovery = .sheet → ends .released [x] store counted.committed) ∧
    (s.cfg.recovery = .piece →
      (x.last = true → ends .pieceComplete (store ++ [x]) [] counted.committed) ∧
      (x.last = false → counted.committed = true → ends .committed [x] store true) ∧
      (x.last = false → counted.committed = false → store.length ≤ 31 → ends .retained [] (store ++ [x]) false) ∧
      (x.last = false → counted.committed = false → 32 ≤ store.length → ends .committed (store ++ [x]) [] true))) ∧
  ∀ (s t : State) (base : BitVec 4),
    (exec (.systemReset base) s = .next t → t.tally = s.tally) ∧
    (exec (.powerOnReset base) s = .next t →
      t.tally = { nextSerial := 0, delivered := 0, lastSerial := 0, lastPiece := 0, valid := false })

/-! ### The planner -/

/-- The planner's launch. Without permission it stages nothing. With it, a loop member that parks at the head of the loop
is re-fed when the schedule head is simplex, has no loop room, is not eligible or is absent, or in DRAINING, and while the
re-feed is not ready the planner waits; otherwise an eligible head is picked in RUNNING, a duplex one with loop room, a
simplex one with the loop empty. A head is eligible when its tray is ready, its stacker is not full, the path table has
room, and its piece is not the open piece, or the open piece is eligible (part of R17, R56 to R61, R65). -/
def Obligations.PlannerLaunches : Prop :=
  ∀ s : State,
    let may := s.plan.staged = none ∧ s.run.hold = false ∧ s.occupancy ≤ 5 ∧
      (s.run.state = .running ∨ s.run.state = .draining)
    let room (h : LogicalSheet) := s.cfg.loopLength ≠ 0 ∧ s.plan.commitment + h.length + s.cfg.loopGap ≤ s.cfg.loopLength
    let back := s.track.loop ≠ [] ∧
      (s.run.state = .draining ∨
        ∀ h, s.fetch.schedule.head? = some h → h.plex = .simplex ∨ ¬room h ∨ s.eligible h = false)
    (¬may → tryStage s = s) ∧
    (∀ l ls e, may → back → s.track.loop = l :: ls → s.entry? l = some e →
      (e.phase = .parked → (∀ x, e.sheet = some x → s.stackerFull e.ident.output = false) → tryStage s = refeed e s) ∧
      (e.phase ≠ .parked → tryStage s = s) ∧
      (e.sheet ≠ none → s.stackerFull e.ident.output = true → tryStage s = s)) ∧
    (∀ h hs, may → ¬back → s.fetch.schedule = h :: hs →
      (s.run.state = .running → s.eligible h = true → (h.plex = .duplex → room h) →
        (h.plex = .simplex → s.track.loop = []) → tryStage s = pick h s) ∧
      (s.run.state = .draining ∨ s.eligible h = false → tryStage s = s)) ∧
    (may → s.track.loop = [] → s.fetch.schedule = [] → tryStage s = s) ∧
    ∀ h : LogicalSheet, s.eligible h = true ↔
      (∀ p, s.fetch.openPiece = some p → (h.seq - p.firstSeq).toNat < 8388608 → p.eligible = true) ∧
        s.pins.trayrdy[h.tray] = true ∧ (h.output = .a → s.pins.stkfullA = false) ∧
        (h.output = .b → s.pins.stkfullB = false) ∧ s.track.path.length < s.cfg.pathDepth

/-- What a pick and a re-feed do. A pick takes the head of the schedule into a new attached entry with the next launch
number, in phase FEEDING, staged, and arms the LE of its feed station and of REG at the tray's distances; a duplex
entry joins the loop FIFO's tail and U rises by its length plus the loop gap. A re-feed sends the loop's head on its
second leg in phase REFEEDING, blank if detached, staged, leaves it in the loop, and arms the LOOPOUT LE at P, the REG
LE and the LOOPOUT TE. In estimate mode the late tolerances are doubled. Both pulse their line and enter the history,
the pick with its tray, the re-feed with the blank flag (part of R26, R61, R63, R65, R82, R171). That these entries
carry P, the run state and no station is log entry 12 (DEDUCED). -/
def Obligations.LaunchesMoveSheets : Prop :=
  ∀ s : State,
    let late (n : Nat) := if s.time.estimate then min (2 * n) 65535 else n
    let leading (l : Launch) (st : Station) (distance : Nat) : Item :=
      { kind := .edge l st .le, pos := s.time.pos + BitVec.ofNat 24 distance, early := (s.cfg.station st).early
        late := late (s.cfg.station st).late }
    let remembers (kind : HistKind) (serial : Option Serial) (seq : Seq) (l : Launch) : HistoryUnit :=
      s.history.remembering
        { kind := kind, station := none, serial := serial, seq := some seq, launch := some l, pos := s.time.pos
          runState := s.run.state }
    (∀ h hs, s.fetch.schedule = h :: hs →
      let t := pick h s
      let duplex := h.plex = .duplex
      t.fetch = { s.fetch with schedule := hs } ∧
      (∃ e, t.track.path = s.track.path ++ [e] ∧ e.launch = s.plan.counter ∧ e.sheet = some h ∧ e.serial = none ∧
        e.leg = .first ∧ e.phase = .feeding ∧ e.route = none ∧ e.blank = false ∧ e.pickPos = s.time.pos ∧
        e.releasePos = none ∧ e.ident.seq = h.seq ∧ e.ident.piece = h.piece ∧ e.ident.length = h.length) ∧
      t.track.loop = (if duplex then s.track.loop ++ [s.plan.counter] else s.track.loop) ∧
      t.plan =
        { s.plan with
          counter := s.plan.counter + 1, staged := some s.plan.counter
          commitment := if duplex then s.plan.commitment + (h.length + s.cfg.loopGap) else s.plan.commitment } ∧
      t.expect =
        { s.expect with
          items :=
            insertItem (leading s.plan.counter .reg (s.cfg.trays[h.tray]).p)
              (insertItem (leading s.plan.counter (feedStation h.tray) (s.cfg.trays[h.tray]).f) s.expect.items) } ∧
      t.history = remembers (.pick h.tray) none h.seq s.plan.counter ∧
      t.out = s.out ++ [.pick h.tray] ∧ s.holdsSame t) ∧
    ∀ e, e ∈ s.track.path → s.launchesDistinct →
      let t := refeed e s
      (∃ e' ∈ t.track.path, e'.launch = e.launch ∧ e'.sheet = e.sheet ∧ e'.serial = e.serial ∧ e'.leg = .second ∧
        e'.phase = .refeeding ∧ e'.refeedPos = some s.time.pos ∧ e'.route = e.route ∧
        e'.divTaken = false ∧ e'.fuseReached = false ∧ (e'.blank = true ↔ e.blank = true ∨ e.sheet = none)) ∧
      t.track.loop = s.track.loop ∧ t.plan = { s.plan with staged := some e.launch } ∧
      t.expect =
        { s.expect with
          items :=
            insertItem
              { kind := .edge e.launch .loopout .te, pos := s.time.pos + BitVec.ofNat 24 e.ident.length
                early := s.cfg.trailTol, late := late s.cfg.trailTol }
              (insertItem (leading e.launch .reg s.cfg.dLr)
                (insertItem (leading e.launch .loopout 0) s.expect.items)) } ∧
      t.history = remembers (.refeed (e.blank || e.sheet.isNone)) e.serial e.ident.seq e.launch ∧
      t.out = s.out ++ [.refeed] ∧ s.holdsSame t

/-- The release at the gate: a staged entry is released exactly when it is AT_GATE, the gap is MET, the hold latch is
clear, the run state is RUNNING or DRAINING and the last stacker release allows it. The release pulses GATE, frees the
gate, dates the entry's leg at P, gives the serial to an attached first leg and advances the next serial for it and
for no other, and ends the gap for its length and the minimum gap. It arms the XFER LE and the DIV event of the leg,
the TOP event of an attached entry, and the gap wait unless P has reached its position. It enters the history as
RELEASE with the leg and the serial it leaves, ahead of a FREEZE that it fires (that the entry carries P, the run
state and no station is log entry 12, DEDUCED) (part of R26, R27, R62, R68, R69, R77, R99, R171). -/
def Obligations.GateReleases : Prop :=
  ∀ (s : State) (e : PathEntry) (l : Launch), s.plan.staged = some l → s.entry? l = some e → s.launchesDistinct →
    let stacker := e.sheet ≠ none ∧ (e.leg = .second ∨ e.ident.plex = .simplex)
    let may := e.phase = .atGate ∧ s.plan.gapMet = true ∧ s.run.hold = false ∧
      (s.run.state = .running ∨ s.run.state = .draining) ∧
      (stacker → ∀ p, s.plan.lastStacker = some p → p.2 = e.ident.output)
    let serial := e.sheet ≠ none ∧ e.leg = .first
    let gap := s.time.pos + BitVec.ofNat 24 e.ident.length + BitVec.ofNat 24 s.cfg.minGap
    let event (k : ItemKind) (p : Pos) (items : List Item) : List Item :=
      insertItem { kind := k, pos := p, early := 0, late := 0 } items
    let xfer : Item :=
      { kind := .edge l .xfer .le, pos := s.time.pos + BitVec.ofNat 24 s.cfg.dX, early := (s.cfg.station .xfer).early
        late :=
          if s.time.estimate then min (2 * (s.cfg.station .xfer).late) 65535 else (s.cfg.station .xfer).late }
    let leg := event (.div l) (s.time.pos + BitVec.ofNat 24 s.cfg.dDv) (insertItem xfer s.expect.items)
    let imaged := if e.sheet ≠ none then event (.top l) (s.time.pos + BitVec.ofNat 24 s.cfg.dTop) leg else leg
    (¬may → tryRelease s = s) ∧
    (may →
      let t := tryRelease s
      .gate ∈ t.out ∧
      (∃ e' ∈ t.track.path, e'.launch = l ∧ e'.sheet = e.sheet ∧ e'.leg = e.leg ∧ e'.phase = .travel ∧
        e'.releasePos = some s.time.pos ∧ e'.divTaken = false ∧ e'.fuseReached = false ∧
        e'.serial = if serial then some s.tally.nextSerial else e.serial) ∧
      t.tally = { s.tally with nextSerial := if serial then s.tally.nextSerial + 1 else s.tally.nextSerial } ∧
      t.plan =
        { s.plan with
          staged := none, gapMet := s.reached gap, lastRelease := some (s.time.pos, e.ident.length)
          lastStacker := if stacker then some (l, e.ident.output) else s.plan.lastStacker } ∧
      t.expect = { s.expect with items := if s.reached gap then imaged else event .gap gap imaged } ∧
      t.history =
        { s.history.remembering
            { kind := .release e.leg, station := none, serial := if serial then some s.tally.nextSerial else e.serial
              seq := some e.ident.seq, launch := some l, pos := s.time.pos, runState := s.run.state } with
          frozen := t.history.frozen } ∧
      (s.history.frozen = true → t.history.frozen = true) ∧
      t.fetch = s.fetch ∧ t.track.loop = s.track.loop ∧ s.holdsSame t ∧ t.time = s.time ∧ t.run.state = s.run.state)

/-! ### Watch units and resets -/

/-- Matching, counting and firing of W0 and W1. A BUS program counts an access of its direction and class of which one
byte agrees with the address wherever the mask is set; a SHEET program an event of its kind, station and piece. An
ARMED unit that counts the item lowers a remaining count above 0, and fires at 0: a one-shot action leaves it SPENT,
PULSE leaves it ARMED with its count again, and the hit joins its pending hits; each unit does so whatever the other
does. A firing of W0 makes a WAITING W1 ARMED with its own count, for which the item is no match; beyond that a unit
that counts nothing is left as it is. Of a firing while the other unit counts nothing: the action sets the hold latch,
freezes the history or pulses WOUT, once an event (log entry 39) and not in UNSET, and the hit opens a WATCH_HIT
record with its particulars or folds into the unit's open one. W0 acts before W1, so that a HOLD of W0 stands in the
particulars of W1 (log entry 4) (part of R46, R165, R167 to R170). An access that runs past 0xFFFFFFFF has its further
bytes at 0 and up for the comparison (DESIGN CHOICE, log entry 44). -/
def Obligations.WatchUnitsCount : Prop :=
  (∀ (p : WatchProgram) (b : BusItem) (e : SheetEvent),
    (∀ addr mask dir cls, p.source = .bus addr mask dir cls →
      matchesItem p (.sheet e) = false ∧
      (matchesItem p (.bus b) = true ↔
        (∃ k < b.len, ∀ i < 32, mask.getLsbD i = true → (BitVec.ofNat 32 (b.addr + k)).getLsbD i = addr.getLsbD i) ∧
          (dir = .read → b.write = false) ∧ (dir = .write → b.write = true) ∧ ∀ c, cls = some c → c = b.cls)) ∧
    ∀ kind station piece, p.source = .sheet kind station piece →
      matchesItem p (.bus b) = false ∧
      (matchesItem p (.sheet e) = true ↔
        kind = e.kind ∧ (∀ st, station = some st → e.station = some st) ∧ ∀ x, piece = some x → x = e.piece)) ∧
  ∀ (s : State) (item : HitItem),
    let t := offer item s
    let counts (u : UnitId) (p : WatchProgram) :=
      (s.watch.unit u).state = .armed ∧ (s.watch.unit u).program = some p ∧ matchesItem p item = true
    let fires (u : UnitId) (p : WatchProgram) := counts u p ∧ (s.watch.unit u).remaining = 0
    let quiet (u : UnitId) := ∀ p, ¬counts u p
    let hit (u : UnitId) (p : WatchProgram) (held : Bool) : HitParticulars :=
      { unit := u, action := p.action, pos := s.time.pos, runState := s.run.state, hold := held, item := item }
    (∀ u, quiet u →
      (u = .w1 → s.watch.w1.state = .waiting → ∀ p, ¬fires .w0 p) → t.watch.unit u = s.watch.unit u) ∧
    (∀ p q, fires .w0 p → s.watch.w1.state = .waiting → s.watch.w1.program = some q →
      t.watch.w1 = { s.watch.w1 with state := .armed, remaining := q.count }) ∧
    (∀ u p, counts u p → 0 < (s.watch.unit u).remaining →
      t.watch.unit u = { s.watch.unit u with remaining := (s.watch.unit u).remaining - 1 }) ∧
    (∀ u p held, fires u p →
      (held = true ↔ s.run.hold = true ∨ p.action = .hold ∨ u = .w1 ∧ ∃ q, fires .w0 q ∧ q.action = .hold) →
      t.watch.unit u =
        { program := some p
          state := if p.action = .pulse then .armed else .spent
          remaining := if p.action = .pulse then p.count else 0
          hits := min ((s.watch.unit u).hits + 1) 255
          first := if (s.watch.unit u).hits = 0 then some (hit u p held) else (s.watch.unit u).first }) ∧
    ((∀ u p, ¬fires u p) → t = { s with watch := t.watch }) ∧
    ∀ u p, fires u p → (∀ v, v ≠ u → quiet v) →
      let held := s.run.hold || decide (p.action = .hold)
      let acted (queue : List Queued) : State :=
        { s with
          run := { s.run with hold := held }
          history := { s.history with frozen := s.history.frozen || decide (p.action = .freeze) }
          out := if p.action = .pulse ∧ s.run.state ≠ .unset ∧ .wout ∉ s.out then s.out ++ [.wout] else s.out
          watch := t.watch, report := { s.report with queue := queue } }
      ((∀ x ∈ s.report.queue, ∀ r, x = { record := .watchHit r, fixed := false } → r.particulars.unit ≠ u) →
        t = acted (s.report.queue ++
          [{ record := .watchHit { particulars := hit u p held, hits := 1, carried := false }, fixed := false }])) ∧
      ∀ qs rs r, s.report.queue = qs ++ { record := .watchHit r, fixed := false } :: rs → r.particulars.unit = u →
        (∀ x ∈ qs, ∀ r', x = { record := .watchHit r', fixed := false } → r'.particulars.unit ≠ u) →
        t = acted (qs ++ { record := .watchHit { r with hits := min (r.hits + 1) 255 }, fixed := false } :: rs)

/-- The two resets, with the straps sampled at their end. A power-on reset leaves every block as the state after a
power-on reset has it; the levels on the input lines and the waiting commands are the outside's. A system reset keeps,
of the rest, the retained tally, a frozen history and the watch units whose keep flag is set, which hand their pending
hits again as carried records (part of R20, R144, R145, R153, R154, R174). That the waiting commands and the levels
stay is log entry 21 (DESIGN CHOICE), that a unit without a program is not kept is log entry 25 (DEDUCED), that W0's
carried record would stand ahead of W1's is log entry 40, and the values of the bookkeeping fields, a cleared unit's
remaining count of 0 among them, are log entry 28 (DESIGN CHOICE). -/
def Obligations.Resets : Prop :=
  ∀ (s : State) (base : BitVec 4),
    let on : State :=
      { State.reset with
        pending := s.pending, pins := s.pins, setup := { State.reset.setup with base := base } }
    let kept (w : WatchUnit) := ∃ p, w.program = some p ∧ p.keep = true
    exec (.powerOnReset base) s = .next on ∧
    ∃ t, exec (.systemReset base) s = .next t ∧
      t = { on with tally := s.tally, watch := t.watch, history := t.history, report := { on.report with queue := t.report.queue } } ∧
      (∀ u, (kept (s.watch.unit u) → t.watch.unit u = s.watch.unit u) ∧
        (¬kept (s.watch.unit u) →
          t.watch.unit u = { program := none, state := .disarmed, remaining := 0, hits := 0, first := none })) ∧
      (s.history.frozen = true → t.history = { s.history with dump := none }) ∧
      (s.history.frozen = false → t.history = { entries := [], frozen := false, dump := none }) ∧
      ∀ q, q ∈ t.report.queue ↔
        ∃ u p, kept (s.watch.unit u) ∧ 0 < (s.watch.unit u).hits ∧ (s.watch.unit u).first = some p ∧
          q = { record := .watchHit { particulars := p, hits := (s.watch.unit u).hits, carried := true }, fixed := false }
end

