-- ==== Sys2Proof/Laws/Frames.lean ====
section
/-! SUPPORT. What each operation leaves alone: for every operation of the machine one lemma that lists the fields of the
state it never changes. -/

namespace Sys2Proof.Machine

/-- A fold keeps what each of its steps keeps. -/
theorem foldl_keeps {σ α β : Type} (f : σ → α → σ) (π : σ → β) (h : ∀ s a, π (f s a) = π s) :
    ∀ (l : List α) (s : σ), π (l.foldl f s) = π s
  | [], _ => rfl
  | a :: l, s => (foldl_keeps f π h l (f s a)).trans (h s a)

/-- Reporting a list of path entries at a stop keeps what reporting one entry keeps. -/
theorem reportAll_keeps {β : Type} (π : State → β)
    (h : ∀ (t : State) (e : PathEntry) (q : Pos), π (reportSpoiled e (stopReason e) none q t) = π t) (q : Pos)
    (l : List PathEntry) (t : State) :
    π (l.foldl (fun t e => reportSpoiled e (stopReason e) none q t) t) = π t :=
  foldl_keeps _ π (fun t e => h t e q) l t

@[simp] theorem handRecord_frame (r : Record) (s : State) :
    (handRecord r s).pending = s.pending ∧ (handRecord r s).pass = s.pass ∧ (handRecord r s).fetch = s.fetch ∧
      (handRecord r s).run = s.run ∧ (handRecord r s).time = s.time ∧ (handRecord r s).expect = s.expect ∧
      (handRecord r s).plan = s.plan ∧ (handRecord r s).track = s.track ∧ (handRecord r s).image = s.image ∧
      (handRecord r s).recover = s.recover ∧ (handRecord r s).watch = s.watch ∧
      (handRecord r s).history = s.history ∧ (handRecord r s).setup = s.setup ∧ (handRecord r s).tally = s.tally ∧
      (handRecord r s).pins = s.pins ∧ (handRecord r s).out = s.out := by simp [handRecord]

@[simp] theorem handOrFold_frame (f : Record → Option Record) (new : Record) (s : State) :
    (handOrFold f new s).pending = s.pending ∧ (handOrFold f new s).pass = s.pass ∧
      (handOrFold f new s).fetch = s.fetch ∧ (handOrFold f new s).run = s.run ∧
      (handOrFold f new s).time = s.time ∧ (handOrFold f new s).expect = s.expect ∧
      (handOrFold f new s).plan = s.plan ∧ (handOrFold f new s).track = s.track ∧
      (handOrFold f new s).image = s.image ∧ (handOrFold f new s).recover = s.recover ∧
      (handOrFold f new s).watch = s.watch ∧ (handOrFold f new s).history = s.history ∧
      (handOrFold f new s).setup = s.setup ∧ (handOrFold f new s).tally = s.tally ∧
      (handOrFold f new s).pins = s.pins ∧ (handOrFold f new s).out = s.out := by
  simp only [handOrFold]
  (repeat' split) <;> simp

@[simp] theorem handState_frame (old : RunState) (cause : Option StopCause) (s : State) :
    (handState old cause s).pending = s.pending ∧ (handState old cause s).pass = s.pass ∧
      (handState old cause s).fetch = s.fetch ∧ (handState old cause s).run = s.run ∧
      (handState old cause s).time = s.time ∧ (handState old cause s).expect = s.expect ∧
      (handState old cause s).plan = s.plan ∧ (handState old cause s).track = s.track ∧
      (handState old cause s).image = s.image ∧ (handState old cause s).recover = s.recover ∧
      (handState old cause s).watch = s.watch ∧ (handState old cause s).history = s.history ∧
      (handState old cause s).setup = s.setup ∧ (handState old cause s).tally = s.tally ∧
      (handState old cause s).pins = s.pins ∧ (handState old cause s).out = s.out := by simp [handState]

@[simp] theorem changeRun_frame (new : RunState) (cause : Option StopCause) (s : State) :
    (changeRun new cause s).pending = s.pending ∧ (changeRun new cause s).pass = s.pass ∧
      (changeRun new cause s).fetch = s.fetch ∧ (changeRun new cause s).time = s.time ∧
      (changeRun new cause s).expect = s.expect ∧ (changeRun new cause s).plan = s.plan ∧
      (changeRun new cause s).track = s.track ∧ (changeRun new cause s).image = s.image ∧
      (changeRun new cause s).recover = s.recover ∧ (changeRun new cause s).watch = s.watch ∧
      (changeRun new cause s).history = s.history ∧ (changeRun new cause s).setup = s.setup ∧
      (changeRun new cause s).tally = s.tally ∧ (changeRun new cause s).pins = s.pins ∧
      (changeRun new cause s).out = s.out := by simp [changeRun]

@[simp] theorem handRefusal_frame (outcome : SetupOutcome) (fetched : Byte) (s : State) :
    (handRefusal outcome fetched s).pending = s.pending ∧ (handRefusal outcome fetched s).pass = s.pass ∧
      (handRefusal outcome fetched s).fetch = s.fetch ∧ (handRefusal outcome fetched s).run = s.run ∧
      (handRefusal outcome fetched s).time = s.time ∧ (handRefusal outcome fetched s).expect = s.expect ∧
      (handRefusal outcome fetched s).plan = s.plan ∧ (handRefusal outcome fetched s).track = s.track ∧
      (handRefusal outcome fetched s).image = s.image ∧ (handRefusal outcome fetched s).recover = s.recover ∧
      (handRefusal outcome fetched s).watch = s.watch ∧ (handRefusal outcome fetched s).history = s.history ∧
      (handRefusal outcome fetched s).setup = s.setup ∧ (handRefusal outcome fetched s).tally = s.tally ∧
      (handRefusal outcome fetched s).pins = s.pins ∧ (handRefusal outcome fetched s).out = s.out := by simp [handRefusal]

@[simp] theorem handAcceptance_frame (fetched : Byte) (s : State) :
    (handAcceptance fetched s).pending = s.pending ∧ (handAcceptance fetched s).pass = s.pass ∧
      (handAcceptance fetched s).fetch = s.fetch ∧ (handAcceptance fetched s).run = s.run ∧
      (handAcceptance fetched s).time = s.time ∧ (handAcceptance fetched s).expect = s.expect ∧
      (handAcceptance fetched s).plan = s.plan ∧ (handAcceptance fetched s).track = s.track ∧
      (handAcceptance fetched s).image = s.image ∧ (handAcceptance fetched s).recover = s.recover ∧
      (handAcceptance fetched s).watch = s.watch ∧ (handAcceptance fetched s).history = s.history ∧
      (handAcceptance fetched s).setup = s.setup ∧ (handAcceptance fetched s).tally = s.tally ∧
      (handAcceptance fetched s).pins = s.pins ∧ (handAcceptance fetched s).out = s.out := by simp [handAcceptance]

@[simp] theorem handPolicy_frame (row : PolicyRow) (outcome : PolicyField) (f : Forwarded) (value view : Option Nat)
    (s : State) :
    (handPolicy row outcome f value view s).pending = s.pending ∧
      (handPolicy row outcome f value view s).pass = s.pass ∧
      (handPolicy row outcome f value view s).fetch = s.fetch ∧
      (handPolicy row outcome f value view s).run = s.run ∧ (handPolicy row outcome f value view s).time = s.time ∧
      (handPolicy row outcome f value view s).expect = s.expect ∧
      (handPolicy row outcome f value view s).plan = s.plan ∧
      (handPolicy row outcome f value view s).track = s.track ∧
      (handPolicy row outcome f value view s).image = s.image ∧
      (handPolicy row outcome f value view s).recover = s.recover ∧
      (handPolicy row outcome f value view s).watch = s.watch ∧
      (handPolicy row outcome f value view s).history = s.history ∧
      (handPolicy row outcome f value view s).setup = s.setup ∧
      (handPolicy row outcome f value view s).tally = s.tally ∧
      (handPolicy row outcome f value view s).pins = s.pins ∧ (handPolicy row outcome f value view s).out = s.out := by simp [handPolicy]

@[simp] theorem emit_frame (o : Output) (s : State) :
    (emit o s).pending = s.pending ∧ (emit o s).pass = s.pass ∧ (emit o s).fetch = s.fetch ∧
      (emit o s).run = s.run ∧ (emit o s).time = s.time ∧ (emit o s).expect = s.expect ∧ (emit o s).plan = s.plan ∧
      (emit o s).track = s.track ∧ (emit o s).image = s.image ∧ (emit o s).recover = s.recover ∧
      (emit o s).report = s.report ∧ (emit o s).watch = s.watch ∧ (emit o s).history = s.history ∧
      (emit o s).setup = s.setup ∧ (emit o s).tally = s.tally ∧ (emit o s).pins = s.pins := by simp [emit]

@[simp] theorem begin_frame (s : State) :
    (begin s).pending = s.pending ∧ (begin s).pass = s.pass ∧ (begin s).fetch = s.fetch ∧ (begin s).run = s.run ∧
      (begin s).time = s.time ∧ (begin s).expect = s.expect ∧ (begin s).plan = s.plan ∧ (begin s).track = s.track ∧
      (begin s).image = s.image ∧ (begin s).recover = s.recover ∧ (begin s).report = s.report ∧
      (begin s).watch = s.watch ∧ (begin s).history = s.history ∧ (begin s).setup = s.setup ∧
      (begin s).tally = s.tally ∧ (begin s).pins = s.pins := by simp [begin]

@[simp] theorem pulseWout_frame (s : State) :
    (pulseWout s).pending = s.pending ∧ (pulseWout s).pass = s.pass ∧ (pulseWout s).fetch = s.fetch ∧
      (pulseWout s).run = s.run ∧ (pulseWout s).time = s.time ∧ (pulseWout s).expect = s.expect ∧
      (pulseWout s).plan = s.plan ∧ (pulseWout s).track = s.track ∧ (pulseWout s).image = s.image ∧
      (pulseWout s).recover = s.recover ∧ (pulseWout s).report = s.report ∧ (pulseWout s).watch = s.watch ∧
      (pulseWout s).history = s.history ∧ (pulseWout s).setup = s.setup ∧ (pulseWout s).tally = s.tally ∧
      (pulseWout s).pins = s.pins := by
  simp only [pulseWout]
  (repeat' split) <;> simp

@[simp] theorem appendHist_frame (kind : HistKind) (station : Option Station) (serial : Option Serial) (seq : Option Seq) (launch : Option Launch) (pos : Pos)
    (s : State) :
    (appendHist kind station serial seq launch pos s).pending = s.pending ∧
      (appendHist kind station serial seq launch pos s).pass = s.pass ∧
      (appendHist kind station serial seq launch pos s).fetch = s.fetch ∧
      (appendHist kind station serial seq launch pos s).run = s.run ∧
      (appendHist kind station serial seq launch pos s).time = s.time ∧
      (appendHist kind station serial seq launch pos s).expect = s.expect ∧
      (appendHist kind station serial seq launch pos s).plan = s.plan ∧
      (appendHist kind station serial seq launch pos s).track = s.track ∧
      (appendHist kind station serial seq launch pos s).image = s.image ∧
      (appendHist kind station serial seq launch pos s).recover = s.recover ∧
      (appendHist kind station serial seq launch pos s).report = s.report ∧
      (appendHist kind station serial seq launch pos s).watch = s.watch ∧
      (appendHist kind station serial seq launch pos s).setup = s.setup ∧
      (appendHist kind station serial seq launch pos s).tally = s.tally ∧
      (appendHist kind station serial seq launch pos s).pins = s.pins ∧
      (appendHist kind station serial seq launch pos s).out = s.out := by
  simp only [appendHist]
  (repeat' split) <;> simp

@[simp] theorem addItem_frame (it : Item) (s : State) :
    (addItem it s).pending = s.pending ∧ (addItem it s).pass = s.pass ∧ (addItem it s).fetch = s.fetch ∧
      (addItem it s).run = s.run ∧ (addItem it s).time = s.time ∧ (addItem it s).plan = s.plan ∧
      (addItem it s).track = s.track ∧ (addItem it s).image = s.image ∧ (addItem it s).recover = s.recover ∧
      (addItem it s).report = s.report ∧ (addItem it s).watch = s.watch ∧ (addItem it s).history = s.history ∧
      (addItem it s).setup = s.setup ∧ (addItem it s).tally = s.tally ∧ (addItem it s).pins = s.pins ∧
      (addItem it s).out = s.out := by simp [addItem]

@[simp] theorem armEdge_frame (launch : Launch) (st : Station) (e : Edge) (pos : Pos) (early late : Nat)
    (s : State) :
    (armEdge launch st e pos early late s).pending = s.pending ∧
      (armEdge launch st e pos early late s).pass = s.pass ∧
      (armEdge launch st e pos early late s).fetch = s.fetch ∧ (armEdge launch st e pos early late s).run = s.run ∧
      (armEdge launch st e pos early late s).time = s.time ∧ (armEdge launch st e pos early late s).plan = s.plan ∧
      (armEdge launch st e pos early late s).track = s.track ∧
      (armEdge launch st e pos early late s).image = s.image ∧
      (armEdge launch st e pos early late s).recover = s.recover ∧
      (armEdge launch st e pos early late s).report = s.report ∧
      (armEdge launch st e pos early late s).watch = s.watch ∧
      (armEdge launch st e pos early late s).history = s.history ∧
      (armEdge launch st e pos early late s).setup = s.setup ∧
      (armEdge launch st e pos early late s).tally = s.tally ∧
      (armEdge launch st e pos early late s).pins = s.pins ∧ (armEdge launch st e pos early late s).out = s.out := by simp [armEdge]

@[simp] theorem armLE_frame (launch : Launch) (st : Station) (pos : Pos) (s : State) :
    (armLE launch st pos s).pending = s.pending ∧ (armLE launch st pos s).pass = s.pass ∧
      (armLE launch st pos s).fetch = s.fetch ∧ (armLE launch st pos s).run = s.run ∧
      (armLE launch st pos s).time = s.time ∧ (armLE launch st pos s).plan = s.plan ∧
      (armLE launch st pos s).track = s.track ∧ (armLE launch st pos s).image = s.image ∧
      (armLE launch st pos s).recover = s.recover ∧ (armLE launch st pos s).report = s.report ∧
      (armLE launch st pos s).watch = s.watch ∧ (armLE launch st pos s).history = s.history ∧
      (armLE launch st pos s).setup = s.setup ∧ (armLE launch st pos s).tally = s.tally ∧
      (armLE launch st pos s).pins = s.pins ∧ (armLE launch st pos s).out = s.out := by simp [armLE]

@[simp] theorem armTE_frame (launch : Launch) (st : Station) (pos : Pos) (s : State) :
    (armTE launch st pos s).pending = s.pending ∧ (armTE launch st pos s).pass = s.pass ∧
      (armTE launch st pos s).fetch = s.fetch ∧ (armTE launch st pos s).run = s.run ∧
      (armTE launch st pos s).time = s.time ∧ (armTE launch st pos s).plan = s.plan ∧
      (armTE launch st pos s).track = s.track ∧ (armTE launch st pos s).image = s.image ∧
      (armTE launch st pos s).recover = s.recover ∧ (armTE launch st pos s).report = s.report ∧
      (armTE launch st pos s).watch = s.watch ∧ (armTE launch st pos s).history = s.history ∧
      (armTE launch st pos s).setup = s.setup ∧ (armTE launch st pos s).tally = s.tally ∧
      (armTE launch st pos s).pins = s.pins ∧ (armTE launch st pos s).out = s.out := by simp [armTE]

@[simp] theorem armEvent_frame (kind : ItemKind) (pos : Pos) (s : State) :
    (armEvent kind pos s).pending = s.pending ∧ (armEvent kind pos s).pass = s.pass ∧
      (armEvent kind pos s).fetch = s.fetch ∧ (armEvent kind pos s).run = s.run ∧
      (armEvent kind pos s).time = s.time ∧ (armEvent kind pos s).plan = s.plan ∧
      (armEvent kind pos s).track = s.track ∧ (armEvent kind pos s).image = s.image ∧
      (armEvent kind pos s).recover = s.recover ∧ (armEvent kind pos s).report = s.report ∧
      (armEvent kind pos s).watch = s.watch ∧ (armEvent kind pos s).history = s.history ∧
      (armEvent kind pos s).setup = s.setup ∧ (armEvent kind pos s).tally = s.tally ∧
      (armEvent kind pos s).pins = s.pins ∧ (armEvent kind pos s).out = s.out := by simp [armEvent]

@[simp] theorem withdraw_frame (p : Item → Bool) (s : State) :
    (withdraw p s).pending = s.pending ∧ (withdraw p s).pass = s.pass ∧ (withdraw p s).fetch = s.fetch ∧
      (withdraw p s).run = s.run ∧ (withdraw p s).time = s.time ∧ (withdraw p s).plan = s.plan ∧
      (withdraw p s).track = s.track ∧ (withdraw p s).image = s.image ∧ (withdraw p s).recover = s.recover ∧
      (withdraw p s).report = s.report ∧ (withdraw p s).watch = s.watch ∧ (withdraw p s).history = s.history ∧
      (withdraw p s).setup = s.setup ∧ (withdraw p s).tally = s.tally ∧ (withdraw p s).pins = s.pins ∧
      (withdraw p s).out = s.out := by simp [withdraw]

@[simp] theorem dropItem_frame (it : Item) (s : State) :
    (dropItem it s).pending = s.pending ∧ (dropItem it s).pass = s.pass ∧ (dropItem it s).fetch = s.fetch ∧
      (dropItem it s).run = s.run ∧ (dropItem it s).time = s.time ∧ (dropItem it s).plan = s.plan ∧
      (dropItem it s).track = s.track ∧ (dropItem it s).image = s.image ∧ (dropItem it s).recover = s.recover ∧
      (dropItem it s).report = s.report ∧ (dropItem it s).watch = s.watch ∧ (dropItem it s).history = s.history ∧
      (dropItem it s).setup = s.setup ∧ (dropItem it s).tally = s.tally ∧ (dropItem it s).pins = s.pins ∧
      (dropItem it s).out = s.out := by simp [dropItem]

@[simp] theorem updEntry_frame (l : Launch) (f : PathEntry → PathEntry) (s : State) :
    (updEntry l f s).pending = s.pending ∧ (updEntry l f s).pass = s.pass ∧ (updEntry l f s).fetch = s.fetch ∧
      (updEntry l f s).run = s.run ∧ (updEntry l f s).time = s.time ∧ (updEntry l f s).expect = s.expect ∧
      (updEntry l f s).plan = s.plan ∧ (updEntry l f s).image = s.image ∧ (updEntry l f s).recover = s.recover ∧
      (updEntry l f s).report = s.report ∧ (updEntry l f s).watch = s.watch ∧
      (updEntry l f s).history = s.history ∧ (updEntry l f s).setup = s.setup ∧ (updEntry l f s).tally = s.tally ∧
      (updEntry l f s).pins = s.pins ∧ (updEntry l f s).out = s.out := by simp [updEntry]

@[simp] theorem leaveLoop_frame (l : Launch) (length : Nat) (s : State) :
    (leaveLoop l length s).pending = s.pending ∧ (leaveLoop l length s).pass = s.pass ∧
      (leaveLoop l length s).fetch = s.fetch ∧ (leaveLoop l length s).run = s.run ∧
      (leaveLoop l length s).time = s.time ∧ (leaveLoop l length s).expect = s.expect ∧
      (leaveLoop l length s).image = s.image ∧ (leaveLoop l length s).recover = s.recover ∧
      (leaveLoop l length s).report = s.report ∧ (leaveLoop l length s).watch = s.watch ∧
      (leaveLoop l length s).history = s.history ∧ (leaveLoop l length s).setup = s.setup ∧
      (leaveLoop l length s).tally = s.tally ∧ (leaveLoop l length s).pins = s.pins ∧
      (leaveLoop l length s).out = s.out := by
  simp only [leaveLoop]
  (repeat' split) <;> simp

@[simp] theorem forgetStacker_frame (l : Launch) (s : State) :
    (forgetStacker l s).pending = s.pending ∧ (forgetStacker l s).pass = s.pass ∧
      (forgetStacker l s).fetch = s.fetch ∧ (forgetStacker l s).run = s.run ∧ (forgetStacker l s).time = s.time ∧
      (forgetStacker l s).expect = s.expect ∧ (forgetStacker l s).track = s.track ∧
      (forgetStacker l s).image = s.image ∧ (forgetStacker l s).recover = s.recover ∧
      (forgetStacker l s).report = s.report ∧ (forgetStacker l s).watch = s.watch ∧
      (forgetStacker l s).history = s.history ∧ (forgetStacker l s).setup = s.setup ∧
      (forgetStacker l s).tally = s.tally ∧ (forgetStacker l s).pins = s.pins ∧ (forgetStacker l s).out = s.out := by
  simp only [forgetStacker]
  (repeat' split) <;> simp

@[simp] theorem endSide_frame (l : Launch) (s : State) :
    (endSide l s).pending = s.pending ∧ (endSide l s).pass = s.pass ∧ (endSide l s).fetch = s.fetch ∧
      (endSide l s).run = s.run ∧ (endSide l s).time = s.time ∧ (endSide l s).plan = s.plan ∧
      (endSide l s).track = s.track ∧ (endSide l s).recover = s.recover ∧ (endSide l s).report = s.report ∧
      (endSide l s).watch = s.watch ∧ (endSide l s).history = s.history ∧ (endSide l s).setup = s.setup ∧
      (endSide l s).tally = s.tally ∧ (endSide l s).pins = s.pins ∧ (endSide l s).out = s.out := by
  simp only [endSide]
  (repeat' split) <;> simp

@[simp] theorem leavePath_frame (e : PathEntry) (s : State) :
    (leavePath e s).pending = s.pending ∧ (leavePath e s).pass = s.pass ∧ (leavePath e s).fetch = s.fetch ∧
      (leavePath e s).run = s.run ∧ (leavePath e s).time = s.time ∧ (leavePath e s).recover = s.recover ∧
      (leavePath e s).report = s.report ∧ (leavePath e s).watch = s.watch ∧ (leavePath e s).history = s.history ∧
      (leavePath e s).setup = s.setup ∧ (leavePath e s).tally = s.tally ∧ (leavePath e s).pins = s.pins ∧
      (leavePath e s).out = s.out := by simp [leavePath]

@[simp] theorem unlock_frame (seqs : List Seq) (s : State) :
    (unlock seqs s).pending = s.pending ∧ (unlock seqs s).fetch = s.fetch ∧ (unlock seqs s).run = s.run ∧
      (unlock seqs s).time = s.time ∧ (unlock seqs s).expect = s.expect ∧ (unlock seqs s).plan = s.plan ∧
      (unlock seqs s).track = s.track ∧ (unlock seqs s).image = s.image ∧ (unlock seqs s).recover = s.recover ∧
      (unlock seqs s).report = s.report ∧ (unlock seqs s).watch = s.watch ∧ (unlock seqs s).history = s.history ∧
      (unlock seqs s).setup = s.setup ∧ (unlock seqs s).tally = s.tally ∧ (unlock seqs s).pins = s.pins ∧
      (unlock seqs s).out = s.out := by simp [unlock]

@[simp] theorem requeue_frame (xs : List LogicalSheet) (s : State) :
    (requeue xs s).pending = s.pending ∧ (requeue xs s).pass = s.pass ∧ (requeue xs s).run = s.run ∧
      (requeue xs s).time = s.time ∧ (requeue xs s).expect = s.expect ∧ (requeue xs s).plan = s.plan ∧
      (requeue xs s).track = s.track ∧ (requeue xs s).image = s.image ∧ (requeue xs s).recover = s.recover ∧
      (requeue xs s).report = s.report ∧ (requeue xs s).watch = s.watch ∧ (requeue xs s).history = s.history ∧
      (requeue xs s).setup = s.setup ∧ (requeue xs s).tally = s.tally ∧ (requeue xs s).pins = s.pins ∧
      (requeue xs s).out = s.out := by simp [requeue]

@[simp] theorem pushOwn_frame (a : OwnAccess) (s : State) :
    (pushOwn a s).pending = s.pending ∧ (pushOwn a s).fetch = s.fetch ∧ (pushOwn a s).run = s.run ∧
      (pushOwn a s).time = s.time ∧ (pushOwn a s).expect = s.expect ∧ (pushOwn a s).plan = s.plan ∧
      (pushOwn a s).track = s.track ∧ (pushOwn a s).image = s.image ∧ (pushOwn a s).recover = s.recover ∧
      (pushOwn a s).report = s.report ∧ (pushOwn a s).watch = s.watch ∧ (pushOwn a s).history = s.history ∧
      (pushOwn a s).setup = s.setup ∧ (pushOwn a s).tally = s.tally ∧ (pushOwn a s).pins = s.pins ∧
      (pushOwn a s).out = s.out := by simp [pushOwn]

@[simp] theorem freePort_frame (s : State) :
    (freePort s).pending = s.pending ∧ (freePort s).fetch = s.fetch ∧ (freePort s).run = s.run ∧
      (freePort s).time = s.time ∧ (freePort s).expect = s.expect ∧ (freePort s).plan = s.plan ∧
      (freePort s).track = s.track ∧ (freePort s).image = s.image ∧ (freePort s).recover = s.recover ∧
      (freePort s).report = s.report ∧ (freePort s).watch = s.watch ∧ (freePort s).history = s.history ∧
      (freePort s).setup = s.setup ∧ (freePort s).tally = s.tally ∧ (freePort s).pins = s.pins ∧
      (freePort s).out = s.out := by simp [freePort]

@[simp] theorem setUnit_frame (u : UnitId) (x : WatchUnit) (s : State) :
    (setUnit u x s).pending = s.pending ∧ (setUnit u x s).pass = s.pass ∧ (setUnit u x s).fetch = s.fetch ∧
      (setUnit u x s).run = s.run ∧ (setUnit u x s).time = s.time ∧ (setUnit u x s).expect = s.expect ∧
      (setUnit u x s).plan = s.plan ∧ (setUnit u x s).track = s.track ∧ (setUnit u x s).image = s.image ∧
      (setUnit u x s).recover = s.recover ∧ (setUnit u x s).report = s.report ∧
      (setUnit u x s).history = s.history ∧ (setUnit u x s).setup = s.setup ∧ (setUnit u x s).tally = s.tally ∧
      (setUnit u x s).pins = s.pins ∧ (setUnit u x s).out = s.out := by
  simp only [setUnit]
  (repeat' split) <;> simp

@[simp] theorem makeHit_frame (u : UnitId) (part : HitParticulars) (s : State) :
    (makeHit u part s).pending = s.pending ∧ (makeHit u part s).pass = s.pass ∧
      (makeHit u part s).fetch = s.fetch ∧ (makeHit u part s).run = s.run ∧ (makeHit u part s).time = s.time ∧
      (makeHit u part s).expect = s.expect ∧ (makeHit u part s).plan = s.plan ∧
      (makeHit u part s).track = s.track ∧ (makeHit u part s).image = s.image ∧
      (makeHit u part s).recover = s.recover ∧ (makeHit u part s).history = s.history ∧
      (makeHit u part s).setup = s.setup ∧ (makeHit u part s).tally = s.tally ∧ (makeHit u part s).pins = s.pins ∧
      (makeHit u part s).out = s.out := by simp [makeHit]

@[simp] theorem fireAction_frame (a : WatchAction) (s : State) :
    (fireAction a s).pending = s.pending ∧ (fireAction a s).pass = s.pass ∧ (fireAction a s).fetch = s.fetch ∧
      (fireAction a s).time = s.time ∧ (fireAction a s).expect = s.expect ∧ (fireAction a s).plan = s.plan ∧
      (fireAction a s).track = s.track ∧ (fireAction a s).image = s.image ∧ (fireAction a s).recover = s.recover ∧
      (fireAction a s).report = s.report ∧ (fireAction a s).watch = s.watch ∧ (fireAction a s).setup = s.setup ∧
      (fireAction a s).tally = s.tally ∧ (fireAction a s).pins = s.pins := by
  simp only [fireAction]
  (repeat' split) <;> simp

@[simp] theorem armW1_frame (s : State) :
    (armW1 s).pending = s.pending ∧ (armW1 s).pass = s.pass ∧ (armW1 s).fetch = s.fetch ∧ (armW1 s).run = s.run ∧
      (armW1 s).time = s.time ∧ (armW1 s).expect = s.expect ∧ (armW1 s).plan = s.plan ∧ (armW1 s).track = s.track ∧
      (armW1 s).image = s.image ∧ (armW1 s).recover = s.recover ∧ (armW1 s).report = s.report ∧
      (armW1 s).history = s.history ∧ (armW1 s).setup = s.setup ∧ (armW1 s).tally = s.tally ∧
      (armW1 s).pins = s.pins ∧ (armW1 s).out = s.out := by
  simp only [armW1]
  (repeat' split) <;> simp

@[simp] theorem fire_frame (u : UnitId) (p : WatchProgram) (item : HitItem) (s : State) :
    (fire u p item s).pending = s.pending ∧ (fire u p item s).pass = s.pass ∧ (fire u p item s).fetch = s.fetch ∧
      (fire u p item s).time = s.time ∧ (fire u p item s).expect = s.expect ∧ (fire u p item s).plan = s.plan ∧
      (fire u p item s).track = s.track ∧ (fire u p item s).image = s.image ∧
      (fire u p item s).recover = s.recover ∧ (fire u p item s).setup = s.setup ∧
      (fire u p item s).tally = s.tally ∧ (fire u p item s).pins = s.pins := by
  simp only [fire]
  (repeat' split) <;> simp

@[simp] theorem countMatch_frame (u : UnitId) (item : HitItem) (s : State) :
    (countMatch u item s).pending = s.pending ∧ (countMatch u item s).pass = s.pass ∧
      (countMatch u item s).fetch = s.fetch ∧ (countMatch u item s).time = s.time ∧
      (countMatch u item s).expect = s.expect ∧ (countMatch u item s).plan = s.plan ∧
      (countMatch u item s).track = s.track ∧ (countMatch u item s).image = s.image ∧
      (countMatch u item s).recover = s.recover ∧ (countMatch u item s).setup = s.setup ∧
      (countMatch u item s).tally = s.tally ∧ (countMatch u item s).pins = s.pins := by
  simp only [countMatch]
  (repeat' split) <;> simp

@[simp] theorem offer_frame (item : HitItem) (s : State) :
    (offer item s).pending = s.pending ∧ (offer item s).pass = s.pass ∧ (offer item s).fetch = s.fetch ∧
      (offer item s).time = s.time ∧ (offer item s).expect = s.expect ∧ (offer item s).plan = s.plan ∧
      (offer item s).track = s.track ∧ (offer item s).image = s.image ∧ (offer item s).recover = s.recover ∧
      (offer item s).setup = s.setup ∧ (offer item s).tally = s.tally ∧ (offer item s).pins = s.pins := by
  simp only [offer]
  (repeat' split) <;> simp

@[simp] theorem sheetEvent_frame (kind : SheetEventKind) (hist : HistKind) (station : Option Station) (e : PathEntry) (pos : Pos)
    (s : State) :
    (sheetEvent kind hist station e pos s).pending = s.pending ∧
      (sheetEvent kind hist station e pos s).pass = s.pass ∧
      (sheetEvent kind hist station e pos s).fetch = s.fetch ∧
      (sheetEvent kind hist station e pos s).time = s.time ∧
      (sheetEvent kind hist station e pos s).expect = s.expect ∧
      (sheetEvent kind hist station e pos s).plan = s.plan ∧
      (sheetEvent kind hist station e pos s).track = s.track ∧
      (sheetEvent kind hist station e pos s).image = s.image ∧
      (sheetEvent kind hist station e pos s).recover = s.recover ∧
      (sheetEvent kind hist station e pos s).setup = s.setup ∧
      (sheetEvent kind hist station e pos s).tally = s.tally ∧ (sheetEvent kind hist station e pos s).pins = s.pins := by simp [sheetEvent]

@[simp] theorem detach_frame (r : SpoilReason) (e : PathEntry) (s : State) :
    (detach r e s).pending = s.pending ∧ (detach r e s).pass = s.pass ∧ (detach r e s).fetch = s.fetch ∧
      (detach r e s).run = s.run ∧ (detach r e s).time = s.time ∧ (detach r e s).recover = s.recover ∧
      (detach r e s).report = s.report ∧ (detach r e s).watch = s.watch ∧ (detach r e s).history = s.history ∧
      (detach r e s).setup = s.setup ∧ (detach r e s).tally = s.tally ∧ (detach r e s).pins = s.pins ∧
      (detach r e s).out = s.out := by
  simp only [detach]
  (repeat' split) <;> simp

@[simp] theorem detachAll_frame (r : SpoilReason) (es : List PathEntry) (s : State) :
    (detachAll r es s).pending = s.pending ∧ (detachAll r es s).pass = s.pass ∧
      (detachAll r es s).fetch = s.fetch ∧ (detachAll r es s).run = s.run ∧ (detachAll r es s).time = s.time ∧
      (detachAll r es s).recover = s.recover ∧ (detachAll r es s).report = s.report ∧
      (detachAll r es s).watch = s.watch ∧ (detachAll r es s).history = s.history ∧
      (detachAll r es s).setup = s.setup ∧ (detachAll r es s).tally = s.tally ∧ (detachAll r es s).pins = s.pins ∧
      (detachAll r es s).out = s.out := by
  refine ⟨foldl_keeps _ (fun s : State => s.pending) (by intros; simp) es s,
    foldl_keeps _ (fun s : State => s.pass) (by intros; simp) es s,
    foldl_keeps _ (fun s : State => s.fetch) (by intros; simp) es s,
    foldl_keeps _ (fun s : State => s.run) (by intros; simp) es s,
    foldl_keeps _ (fun s : State => s.time) (by intros; simp) es s,
    foldl_keeps _ (fun s : State => s.recover) (by intros; simp) es s,
    foldl_keeps _ (fun s : State => s.report) (by intros; simp) es s,
    foldl_keeps _ (fun s : State => s.watch) (by intros; simp) es s,
    foldl_keeps _ (fun s : State => s.history) (by intros; simp) es s,
    foldl_keeps _ (fun s : State => s.setup) (by intros; simp) es s,
    foldl_keeps _ (fun s : State => s.tally) (by intros; simp) es s,
    foldl_keeps _ (fun s : State => s.pins) (by intros; simp) es s,
    foldl_keeps _ (fun s : State => s.out) (by intros; simp) es s⟩

@[simp] theorem underrun_frame (e : PathEntry) (side : Side) (pos : Pos) (s : State) :
    (underrun e side pos s).pending = s.pending ∧ (underrun e side pos s).pass = s.pass ∧
      (underrun e side pos s).run = s.run ∧ (underrun e side pos s).time = s.time ∧
      (underrun e side pos s).recover = s.recover ∧ (underrun e side pos s).report = s.report ∧
      (underrun e side pos s).watch = s.watch ∧ (underrun e side pos s).setup = s.setup ∧
      (underrun e side pos s).tally = s.tally ∧ (underrun e side pos s).pins = s.pins ∧
      (underrun e side pos s).out = s.out := by simp [underrun]

@[simp] theorem reportSpoiled_frame (e : PathEntry) (reason : SpoilReason) (place : Option Station) (pos : Pos)
    (s : State) :
    (reportSpoiled e reason place pos s).pending = s.pending ∧ (reportSpoiled e reason place pos s).pass = s.pass ∧
      (reportSpoiled e reason place pos s).fetch = s.fetch ∧ (reportSpoiled e reason place pos s).time = s.time ∧
      (reportSpoiled e reason place pos s).expect = s.expect ∧ (reportSpoiled e reason place pos s).plan = s.plan ∧
      (reportSpoiled e reason place pos s).track = s.track ∧ (reportSpoiled e reason place pos s).image = s.image ∧
      (reportSpoiled e reason place pos s).recover = s.recover ∧
      (reportSpoiled e reason place pos s).setup = s.setup ∧ (reportSpoiled e reason place pos s).tally = s.tally ∧
      (reportSpoiled e reason place pos s).pins = s.pins := by simp [reportSpoiled]

@[simp] theorem breakPiece_frame (s : State) :
    (breakPiece s).pending = s.pending ∧ (breakPiece s).pass = s.pass ∧ (breakPiece s).run = s.run ∧
      (breakPiece s).time = s.time ∧ (breakPiece s).expect = s.expect ∧ (breakPiece s).plan = s.plan ∧
      (breakPiece s).image = s.image ∧ (breakPiece s).recover = s.recover ∧ (breakPiece s).watch = s.watch ∧
      (breakPiece s).history = s.history ∧ (breakPiece s).setup = s.setup ∧ (breakPiece s).tally = s.tally ∧
      (breakPiece s).pins = s.pins ∧ (breakPiece s).out = s.out := by
  simp only [breakPiece]
  (repeat' split) <;> simp

@[simp] theorem stopWork_frame (snap : Snapshot) (s : State) :
    (stopWork snap s).pending = s.pending ∧ (stopWork snap s).pass = s.pass ∧ (stopWork snap s).time = s.time ∧
      (stopWork snap s).expect = s.expect ∧ (stopWork snap s).image = s.image ∧ (stopWork snap s).setup = s.setup ∧
      (stopWork snap s).tally = s.tally ∧ (stopWork snap s).pins = s.pins := by
  have h0 := reportAll_keeps (fun t : State => t.pending) (by intros; simp) snap.pos
  have h1 := reportAll_keeps (fun t : State => t.pass) (by intros; simp) snap.pos
  have h2 := reportAll_keeps (fun t : State => t.time) (by intros; simp) snap.pos
  have h3 := reportAll_keeps (fun t : State => t.expect) (by intros; simp) snap.pos
  have h4 := reportAll_keeps (fun t : State => t.image) (by intros; simp) snap.pos
  have h5 := reportAll_keeps (fun t : State => t.setup) (by intros; simp) snap.pos
  have h6 := reportAll_keeps (fun t : State => t.tally) (by intros; simp) snap.pos
  have h7 := reportAll_keeps (fun t : State => t.pins) (by intros; simp) snap.pos
  simp only [stopWork]
  split <;> simp [h0, h1, h2, h3, h4, h5, h6, h7]

@[simp] theorem haltPath_frame (s : State) :
    (haltPath s).pending = s.pending ∧ (haltPath s).pass = s.pass ∧ (haltPath s).fetch = s.fetch ∧
      (haltPath s).time = s.time ∧ (haltPath s).track = s.track ∧ (haltPath s).recover = s.recover ∧
      (haltPath s).report = s.report ∧ (haltPath s).watch = s.watch ∧ (haltPath s).history = s.history ∧
      (haltPath s).setup = s.setup ∧ (haltPath s).tally = s.tally ∧ (haltPath s).pins = s.pins ∧
      (haltPath s).out = s.out := by simp [haltPath]

@[simp] theorem stop_frame (cause : StopCause) (station : Option Station) (pos : Pos) (launch : Option Launch) (serial : Option Serial)
    (s : State) :
    (stop cause station pos launch serial s).pending = s.pending ∧
      (stop cause station pos launch serial s).pass = s.pass ∧
      (stop cause station pos launch serial s).time = s.time ∧
      (stop cause station pos launch serial s).setup = s.setup ∧
      (stop cause station pos launch serial s).tally = s.tally ∧
      (stop cause station pos launch serial s).pins = s.pins := by
  simp only [stop]
  (repeat' split) <;> simp

@[simp] theorem stopAtP_frame (cause : StopCause) (s : State) :
    (stopAtP cause s).pending = s.pending ∧ (stopAtP cause s).pass = s.pass ∧ (stopAtP cause s).time = s.time ∧
      (stopAtP cause s).setup = s.setup ∧ (stopAtP cause s).tally = s.tally ∧ (stopAtP cause s).pins = s.pins := by simp [stopAtP]

@[simp] theorem pathFault_frame (cause : StopCause) (station : Station) (pos : Pos) (launch : Launch) (s : State) :
    (pathFault cause station pos launch s).pending = s.pending ∧
      (pathFault cause station pos launch s).pass = s.pass ∧ (pathFault cause station pos launch s).time = s.time ∧
      (pathFault cause station pos launch s).setup = s.setup ∧
      (pathFault cause station pos launch s).tally = s.tally ∧ (pathFault cause station pos launch s).pins = s.pins := by simp [pathFault]

@[simp] theorem cancelPending_frame (p : PieceId) (s : State) :
    (cancelPending p s).pending = s.pending ∧ (cancelPending p s).run = s.run ∧ (cancelPending p s).time = s.time ∧
      (cancelPending p s).expect = s.expect ∧ (cancelPending p s).plan = s.plan ∧
      (cancelPending p s).track = s.track ∧ (cancelPending p s).image = s.image ∧
      (cancelPending p s).recover = s.recover ∧ (cancelPending p s).report = s.report ∧
      (cancelPending p s).watch = s.watch ∧ (cancelPending p s).history = s.history ∧
      (cancelPending p s).setup = s.setup ∧ (cancelPending p s).tally = s.tally ∧
      (cancelPending p s).pins = s.pins ∧ (cancelPending p s).out = s.out := by simp [cancelPending]

@[simp] theorem cancelInPath_frame (p : PieceId) (s : State) :
    (cancelInPath p s).pending = s.pending ∧ (cancelInPath p s).fetch = s.fetch ∧ (cancelInPath p s).run = s.run ∧
      (cancelInPath p s).time = s.time ∧ (cancelInPath p s).recover = s.recover ∧
      (cancelInPath p s).report = s.report ∧ (cancelInPath p s).watch = s.watch ∧
      (cancelInPath p s).history = s.history ∧ (cancelInPath p s).setup = s.setup ∧
      (cancelInPath p s).tally = s.tally ∧ (cancelInPath p s).pins = s.pins ∧ (cancelInPath p s).out = s.out := by simp [cancelInPath]

@[simp] theorem cancelDelivered_frame (s : State) :
    (cancelDelivered s).pending = s.pending ∧ (cancelDelivered s).fetch = s.fetch ∧
      (cancelDelivered s).run = s.run ∧ (cancelDelivered s).time = s.time ∧ (cancelDelivered s).expect = s.expect ∧
      (cancelDelivered s).plan = s.plan ∧ (cancelDelivered s).image = s.image ∧
      (cancelDelivered s).recover = s.recover ∧ (cancelDelivered s).report = s.report ∧
      (cancelDelivered s).watch = s.watch ∧ (cancelDelivered s).history = s.history ∧
      (cancelDelivered s).setup = s.setup ∧ (cancelDelivered s).tally = s.tally ∧
      (cancelDelivered s).pins = s.pins ∧ (cancelDelivered s).out = s.out := by simp [cancelDelivered]

@[simp] theorem cancelPiece_frame (p : PieceId) (s : State) :
    (cancelPiece p s).pending = s.pending ∧ (cancelPiece p s).run = s.run ∧ (cancelPiece p s).time = s.time ∧
      (cancelPiece p s).recover = s.recover ∧ (cancelPiece p s).watch = s.watch ∧
      (cancelPiece p s).history = s.history ∧ (cancelPiece p s).setup = s.setup ∧
      (cancelPiece p s).tally = s.tally ∧ (cancelPiece p s).pins = s.pins ∧ (cancelPiece p s).out = s.out := by
  simp only [cancelPiece]
  (repeat' split) <;> simp

@[simp] theorem impliedCancel_frame (s : State) :
    (impliedCancel s).pending = s.pending ∧ (impliedCancel s).run = s.run ∧ (impliedCancel s).time = s.time ∧
      (impliedCancel s).recover = s.recover ∧ (impliedCancel s).watch = s.watch ∧
      (impliedCancel s).history = s.history ∧ (impliedCancel s).setup = s.setup ∧
      (impliedCancel s).tally = s.tally ∧ (impliedCancel s).pins = s.pins ∧ (impliedCancel s).out = s.out := by
  simp only [impliedCancel]
  (repeat' split) <;> simp

@[simp] theorem clearPath_frame (s : State) :
    (clearPath s).pending = s.pending ∧ (clearPath s).pass = s.pass ∧ (clearPath s).fetch = s.fetch ∧
      (clearPath s).run = s.run ∧ (clearPath s).time = s.time ∧ (clearPath s).report = s.report ∧
      (clearPath s).watch = s.watch ∧ (clearPath s).history = s.history ∧ (clearPath s).setup = s.setup ∧
      (clearPath s).tally = s.tally ∧ (clearPath s).pins = s.pins ∧ (clearPath s).out = s.out := by simp [clearPath]

@[simp] theorem leaveEstimate_frame (s : State) :
    (leaveEstimate s).pending = s.pending ∧ (leaveEstimate s).pass = s.pass ∧ (leaveEstimate s).fetch = s.fetch ∧
      (leaveEstimate s).run = s.run ∧ (leaveEstimate s).expect = s.expect ∧ (leaveEstimate s).plan = s.plan ∧
      (leaveEstimate s).track = s.track ∧ (leaveEstimate s).image = s.image ∧
      (leaveEstimate s).recover = s.recover ∧ (leaveEstimate s).report = s.report ∧
      (leaveEstimate s).watch = s.watch ∧ (leaveEstimate s).history = s.history ∧
      (leaveEstimate s).setup = s.setup ∧ (leaveEstimate s).tally = s.tally ∧ (leaveEstimate s).pins = s.pins ∧
      (leaveEstimate s).out = s.out := by simp [leaveEstimate]

@[simp] theorem armGap_frame (pos : Pos) (s : State) :
    (armGap pos s).pending = s.pending ∧ (armGap pos s).pass = s.pass ∧ (armGap pos s).fetch = s.fetch ∧
      (armGap pos s).run = s.run ∧ (armGap pos s).time = s.time ∧ (armGap pos s).track = s.track ∧
      (armGap pos s).image = s.image ∧ (armGap pos s).recover = s.recover ∧ (armGap pos s).report = s.report ∧
      (armGap pos s).watch = s.watch ∧ (armGap pos s).history = s.history ∧ (armGap pos s).setup = s.setup ∧
      (armGap pos s).tally = s.tally ∧ (armGap pos s).pins = s.pins ∧ (armGap pos s).out = s.out := by
  simp only [armGap]
  (repeat' split) <;> simp

@[simp] theorem takeSerial_frame (e : PathEntry) (s : State) :
    (takeSerial e s).pending = s.pending ∧ (takeSerial e s).pass = s.pass ∧ (takeSerial e s).fetch = s.fetch ∧
      (takeSerial e s).run = s.run ∧ (takeSerial e s).time = s.time ∧ (takeSerial e s).expect = s.expect ∧
      (takeSerial e s).plan = s.plan ∧ (takeSerial e s).track = s.track ∧ (takeSerial e s).image = s.image ∧
      (takeSerial e s).recover = s.recover ∧ (takeSerial e s).report = s.report ∧
      (takeSerial e s).watch = s.watch ∧ (takeSerial e s).history = s.history ∧ (takeSerial e s).setup = s.setup ∧
      (takeSerial e s).pins = s.pins ∧ (takeSerial e s).out = s.out := by
  simp only [takeSerial]
  (repeat' split) <;> simp

@[simp] theorem armLeg_frame (e : PathEntry) (pos : Pos) (s : State) :
    (armLeg e pos s).pending = s.pending ∧ (armLeg e pos s).pass = s.pass ∧ (armLeg e pos s).fetch = s.fetch ∧
      (armLeg e pos s).run = s.run ∧ (armLeg e pos s).time = s.time ∧ (armLeg e pos s).plan = s.plan ∧
      (armLeg e pos s).track = s.track ∧ (armLeg e pos s).image = s.image ∧ (armLeg e pos s).recover = s.recover ∧
      (armLeg e pos s).report = s.report ∧ (armLeg e pos s).watch = s.watch ∧
      (armLeg e pos s).history = s.history ∧ (armLeg e pos s).setup = s.setup ∧ (armLeg e pos s).tally = s.tally ∧
      (armLeg e pos s).pins = s.pins ∧ (armLeg e pos s).out = s.out := by
  simp only [armLeg]
  (repeat' split) <;> simp

@[simp] theorem noteRelease_frame (e : PathEntry) (pos : Pos) (s : State) :
    (noteRelease e pos s).pending = s.pending ∧ (noteRelease e pos s).pass = s.pass ∧
      (noteRelease e pos s).fetch = s.fetch ∧ (noteRelease e pos s).run = s.run ∧
      (noteRelease e pos s).time = s.time ∧ (noteRelease e pos s).track = s.track ∧
      (noteRelease e pos s).image = s.image ∧ (noteRelease e pos s).recover = s.recover ∧
      (noteRelease e pos s).report = s.report ∧ (noteRelease e pos s).watch = s.watch ∧
      (noteRelease e pos s).history = s.history ∧ (noteRelease e pos s).setup = s.setup ∧
      (noteRelease e pos s).tally = s.tally ∧ (noteRelease e pos s).pins = s.pins ∧
      (noteRelease e pos s).out = s.out := by simp [noteRelease]

@[simp] theorem release_frame (e : PathEntry) (s : State) :
    (release e s).pending = s.pending ∧ (release e s).pass = s.pass ∧ (release e s).fetch = s.fetch ∧
      (release e s).time = s.time ∧ (release e s).image = s.image ∧ (release e s).recover = s.recover ∧
      (release e s).setup = s.setup ∧ (release e s).pins = s.pins := by simp [release]

@[simp] theorem tryRelease_frame (s : State) :
    (tryRelease s).pending = s.pending ∧ (tryRelease s).pass = s.pass ∧ (tryRelease s).fetch = s.fetch ∧
      (tryRelease s).time = s.time ∧ (tryRelease s).image = s.image ∧ (tryRelease s).recover = s.recover ∧
      (tryRelease s).setup = s.setup ∧ (tryRelease s).pins = s.pins := by
  simp only [tryRelease]
  (repeat' split) <;> simp

@[simp] theorem commitLoop_frame (l : Launch) (h : LogicalSheet) (s : State) :
    (commitLoop l h s).pending = s.pending ∧ (commitLoop l h s).pass = s.pass ∧
      (commitLoop l h s).fetch = s.fetch ∧ (commitLoop l h s).run = s.run ∧ (commitLoop l h s).time = s.time ∧
      (commitLoop l h s).expect = s.expect ∧ (commitLoop l h s).image = s.image ∧
      (commitLoop l h s).recover = s.recover ∧ (commitLoop l h s).report = s.report ∧
      (commitLoop l h s).watch = s.watch ∧ (commitLoop l h s).history = s.history ∧
      (commitLoop l h s).setup = s.setup ∧ (commitLoop l h s).tally = s.tally ∧ (commitLoop l h s).pins = s.pins ∧
      (commitLoop l h s).out = s.out := by
  simp only [commitLoop]
  (repeat' split) <;> simp

@[simp] theorem pick_frame (h : LogicalSheet) (s : State) :
    (pick h s).pending = s.pending ∧ (pick h s).pass = s.pass ∧ (pick h s).run = s.run ∧ (pick h s).time = s.time ∧
      (pick h s).image = s.image ∧ (pick h s).recover = s.recover ∧ (pick h s).report = s.report ∧
      (pick h s).watch = s.watch ∧ (pick h s).setup = s.setup ∧ (pick h s).tally = s.tally ∧
      (pick h s).pins = s.pins := by simp [pick]

@[simp] theorem refeed_frame (e : PathEntry) (s : State) :
    (refeed e s).pending = s.pending ∧ (refeed e s).pass = s.pass ∧ (refeed e s).fetch = s.fetch ∧
      (refeed e s).run = s.run ∧ (refeed e s).time = s.time ∧ (refeed e s).image = s.image ∧
      (refeed e s).recover = s.recover ∧ (refeed e s).report = s.report ∧ (refeed e s).watch = s.watch ∧
      (refeed e s).setup = s.setup ∧ (refeed e s).tally = s.tally ∧ (refeed e s).pins = s.pins := by simp [refeed]

@[simp] theorem tryStage_frame (s : State) :
    (tryStage s).pending = s.pending ∧ (tryStage s).pass = s.pass ∧ (tryStage s).run = s.run ∧
      (tryStage s).time = s.time ∧ (tryStage s).image = s.image ∧ (tryStage s).recover = s.recover ∧
      (tryStage s).report = s.report ∧ (tryStage s).watch = s.watch ∧ (tryStage s).setup = s.setup ∧
      (tryStage s).tally = s.tally ∧ (tryStage s).pins = s.pins := by
  simp only [tryStage]
  (repeat' split) <;> simp

@[simp] theorem drainStep_frame (s : State) :
    (drainStep s).pending = s.pending ∧ (drainStep s).pass = s.pass ∧ (drainStep s).time = s.time ∧
      (drainStep s).setup = s.setup ∧ (drainStep s).tally = s.tally ∧ (drainStep s).pins = s.pins := by
  simp only [drainStep]
  (repeat' split) <;> simp

@[simp] theorem atSpeed_frame (s : State) :
    (atSpeed s).pending = s.pending ∧ (atSpeed s).pass = s.pass ∧ (atSpeed s).fetch = s.fetch ∧
      (atSpeed s).time = s.time ∧ (atSpeed s).expect = s.expect ∧ (atSpeed s).plan = s.plan ∧
      (atSpeed s).track = s.track ∧ (atSpeed s).image = s.image ∧ (atSpeed s).recover = s.recover ∧
      (atSpeed s).watch = s.watch ∧ (atSpeed s).history = s.history ∧ (atSpeed s).setup = s.setup ∧
      (atSpeed s).tally = s.tally ∧ (atSpeed s).pins = s.pins ∧ (atSpeed s).out = s.out := by simp [atSpeed]

@[simp] theorem enterStarting_frame (s : State) :
    (enterStarting s).pending = s.pending ∧ (enterStarting s).pass = s.pass ∧ (enterStarting s).fetch = s.fetch ∧
      (enterStarting s).time = s.time ∧ (enterStarting s).expect = s.expect ∧ (enterStarting s).plan = s.plan ∧
      (enterStarting s).track = s.track ∧ (enterStarting s).image = s.image ∧
      (enterStarting s).recover = s.recover ∧ (enterStarting s).watch = s.watch ∧
      (enterStarting s).history = s.history ∧ (enterStarting s).setup = s.setup ∧
      (enterStarting s).tally = s.tally ∧ (enterStarting s).pins = s.pins ∧ (enterStarting s).out = s.out := by
  simp only [enterStarting]
  (repeat' split) <;> simp

@[simp] theorem startStep_frame (s : State) :
    (startStep s).pending = s.pending ∧ (startStep s).pass = s.pass ∧ (startStep s).fetch = s.fetch ∧
      (startStep s).time = s.time ∧ (startStep s).expect = s.expect ∧ (startStep s).plan = s.plan ∧
      (startStep s).track = s.track ∧ (startStep s).image = s.image ∧ (startStep s).recover = s.recover ∧
      (startStep s).watch = s.watch ∧ (startStep s).history = s.history ∧ (startStep s).setup = s.setup ∧
      (startStep s).tally = s.tally ∧ (startStep s).pins = s.pins ∧ (startStep s).out = s.out := by
  simp only [startStep]
  (repeat' split) <;> simp

@[simp] theorem fallIdle_frame (s : State) :
    (fallIdle s).pending = s.pending ∧ (fallIdle s).pass = s.pass ∧ (fallIdle s).fetch = s.fetch ∧
      (fallIdle s).time = s.time ∧ (fallIdle s).expect = s.expect ∧ (fallIdle s).plan = s.plan ∧
      (fallIdle s).track = s.track ∧ (fallIdle s).image = s.image ∧ (fallIdle s).recover = s.recover ∧
      (fallIdle s).watch = s.watch ∧ (fallIdle s).history = s.history ∧ (fallIdle s).setup = s.setup ∧
      (fallIdle s).tally = s.tally ∧ (fallIdle s).pins = s.pins ∧ (fallIdle s).out = s.out := by simp [fallIdle]

@[simp] theorem idleStep_frame (s : State) :
    (idleStep s).pending = s.pending ∧ (idleStep s).pass = s.pass ∧ (idleStep s).fetch = s.fetch ∧
      (idleStep s).time = s.time ∧ (idleStep s).plan = s.plan ∧ (idleStep s).track = s.track ∧
      (idleStep s).image = s.image ∧ (idleStep s).recover = s.recover ∧ (idleStep s).watch = s.watch ∧
      (idleStep s).history = s.history ∧ (idleStep s).setup = s.setup ∧ (idleStep s).tally = s.tally ∧
      (idleStep s).pins = s.pins ∧ (idleStep s).out = s.out := by
  simp only [idleStep]
  (repeat' split) <;> simp

@[simp] theorem silenceStep_frame (s : State) :
    (silenceStep s).pending = s.pending ∧ (silenceStep s).pass = s.pass ∧ (silenceStep s).fetch = s.fetch ∧
      (silenceStep s).run = s.run ∧ (silenceStep s).expect = s.expect ∧ (silenceStep s).plan = s.plan ∧
      (silenceStep s).track = s.track ∧ (silenceStep s).image = s.image ∧ (silenceStep s).recover = s.recover ∧
      (silenceStep s).report = s.report ∧ (silenceStep s).watch = s.watch ∧ (silenceStep s).history = s.history ∧
      (silenceStep s).setup = s.setup ∧ (silenceStep s).tally = s.tally ∧ (silenceStep s).pins = s.pins ∧
      (silenceStep s).out = s.out := by
  simp only [silenceStep]
  (repeat' split) <;> simp

@[simp] theorem runOwed_frame (n : Nat) (s : State) :
    (runOwed n s).pending = s.pending ∧ (runOwed n s).pass = s.pass ∧ (runOwed n s).fetch = s.fetch ∧
      (runOwed n s).run = s.run ∧ (runOwed n s).expect = s.expect ∧ (runOwed n s).plan = s.plan ∧
      (runOwed n s).track = s.track ∧ (runOwed n s).image = s.image ∧ (runOwed n s).recover = s.recover ∧
      (runOwed n s).report = s.report ∧ (runOwed n s).watch = s.watch ∧ (runOwed n s).history = s.history ∧
      (runOwed n s).setup = s.setup ∧ (runOwed n s).tally = s.tally ∧ (runOwed n s).pins = s.pins ∧
      (runOwed n s).out = s.out := by
  induction n generalizing s with
  | zero => simp [runOwed]
  | succ n ih => (simp only [runOwed]; split) <;> simp [*]

@[simp] theorem moveP_frame (s : State) :
    (moveP s).pending = s.pending ∧ (moveP s).pass = s.pass ∧ (moveP s).fetch = s.fetch ∧ (moveP s).run = s.run ∧
      (moveP s).expect = s.expect ∧ (moveP s).plan = s.plan ∧ (moveP s).track = s.track ∧
      (moveP s).image = s.image ∧ (moveP s).recover = s.recover ∧ (moveP s).report = s.report ∧
      (moveP s).watch = s.watch ∧ (moveP s).history = s.history ∧ (moveP s).setup = s.setup ∧
      (moveP s).tally = s.tally ∧ (moveP s).pins = s.pins ∧ (moveP s).out = s.out := by simp [moveP]

@[simp] theorem travel_frame (k : Nat) (s : State) :
    (travel k s).pending = s.pending ∧ (travel k s).pass = s.pass ∧ (travel k s).fetch = s.fetch ∧
      (travel k s).run = s.run ∧ (travel k s).expect = s.expect ∧ (travel k s).plan = s.plan ∧
      (travel k s).track = s.track ∧ (travel k s).image = s.image ∧ (travel k s).recover = s.recover ∧
      (travel k s).report = s.report ∧ (travel k s).watch = s.watch ∧ (travel k s).history = s.history ∧
      (travel k s).setup = s.setup ∧ (travel k s).tally = s.tally ∧ (travel k s).pins = s.pins ∧
      (travel k s).out = s.out := by simp [travel]

@[simp] theorem decideAll_frame (s : State) :
    (decideAll s).pending = s.pending ∧ (decideAll s).pass = s.pass ∧ (decideAll s).time = s.time ∧
      (decideAll s).setup = s.setup ∧ (decideAll s).pins = s.pins := by simp [decideAll]

@[simp] theorem settle_frame (s : State) :
    (settle s).pending = s.pending ∧ (settle s).pass = s.pass ∧ (settle s).setup = s.setup ∧
      (settle s).pins = s.pins := by simp [settle]

@[simp] theorem expireItem_frame (it : Item) (s : State) :
    (expireItem it s).pending = s.pending ∧ (expireItem it s).pass = s.pass ∧ (expireItem it s).time = s.time ∧
      (expireItem it s).setup = s.setup ∧ (expireItem it s).tally = s.tally ∧ (expireItem it s).pins = s.pins := by
  simp only [expireItem]
  (repeat' split) <;> simp

@[simp] theorem armLegLE_frame (l : Launch) (st : Station) (pos : Pos) (s : State) :
    (armLegLE l st pos s).pending = s.pending ∧ (armLegLE l st pos s).pass = s.pass ∧
      (armLegLE l st pos s).time = s.time ∧ (armLegLE l st pos s).setup = s.setup ∧
      (armLegLE l st pos s).tally = s.tally ∧ (armLegLE l st pos s).pins = s.pins := by
  simp only [armLegLE]
  (repeat' split) <;> simp

@[simp] theorem armTerminal_frame (e : PathEntry) (r : Route) (s : State) :
    (armTerminal e r s).pending = s.pending ∧ (armTerminal e r s).pass = s.pass ∧
      (armTerminal e r s).time = s.time ∧ (armTerminal e r s).setup = s.setup ∧
      (armTerminal e r s).tally = s.tally ∧ (armTerminal e r s).pins = s.pins := by simp [armTerminal]

@[simp] theorem trackLE_frame (e : PathEntry) (st : Station) (q : Pos) (s : State) :
    (trackLE e st q s).pending = s.pending ∧ (trackLE e st q s).pass = s.pass ∧ (trackLE e st q s).time = s.time ∧
      (trackLE e st q s).setup = s.setup ∧ (trackLE e st q s).tally = s.tally ∧ (trackLE e st q s).pins = s.pins := by
  simp only [trackLE]
  (repeat' split) <;> simp

@[simp] theorem metLE_frame (e : PathEntry) (st : Station) (q : Pos) (s : State) :
    (metLE e st q s).pending = s.pending ∧ (metLE e st q s).pass = s.pass ∧ (metLE e st q s).time = s.time ∧
      (metLE e st q s).setup = s.setup ∧ (metLE e st q s).tally = s.tally ∧ (metLE e st q s).pins = s.pins := by simp [metLE]

@[simp] theorem deliver_frame (e : PathEntry) (x : LogicalSheet) (k : Stacker) (q : Pos) (s : State) :
    (deliver e x k q s).pending = s.pending ∧ (deliver e x k q s).fetch = s.fetch ∧
      (deliver e x k q s).time = s.time ∧ (deliver e x k q s).recover = s.recover ∧
      (deliver e x k q s).setup = s.setup ∧ (deliver e x k q s).pins = s.pins := by simp [deliver]

@[simp] theorem spoiledExit_frame (e : PathEntry) (st : Station) (q : Pos) (s : State) :
    (spoiledExit e st q s).pending = s.pending ∧ (spoiledExit e st q s).pass = s.pass ∧
      (spoiledExit e st q s).fetch = s.fetch ∧ (spoiledExit e st q s).time = s.time ∧
      (spoiledExit e st q s).recover = s.recover ∧ (spoiledExit e st q s).setup = s.setup ∧
      (spoiledExit e st q s).tally = s.tally ∧ (spoiledExit e st q s).pins = s.pins := by simp [spoiledExit]

@[simp] theorem exitStacker_frame (e : PathEntry) (k : Stacker) (q : Pos) (s : State) :
    (exitStacker e k q s).pending = s.pending ∧ (exitStacker e k q s).fetch = s.fetch ∧
      (exitStacker e k q s).time = s.time ∧ (exitStacker e k q s).recover = s.recover ∧
      (exitStacker e k q s).setup = s.setup ∧ (exitStacker e k q s).pins = s.pins := by
  simp only [exitStacker]
  (repeat' split) <;> simp

@[simp] theorem parkEntry_frame (l : Launch) (s : State) :
    (parkEntry l s).pending = s.pending ∧ (parkEntry l s).pass = s.pass ∧ (parkEntry l s).fetch = s.fetch ∧
      (parkEntry l s).run = s.run ∧ (parkEntry l s).time = s.time ∧ (parkEntry l s).expect = s.expect ∧
      (parkEntry l s).plan = s.plan ∧ (parkEntry l s).image = s.image ∧ (parkEntry l s).recover = s.recover ∧
      (parkEntry l s).report = s.report ∧ (parkEntry l s).watch = s.watch ∧ (parkEntry l s).history = s.history ∧
      (parkEntry l s).setup = s.setup ∧ (parkEntry l s).tally = s.tally ∧ (parkEntry l s).pins = s.pins ∧
      (parkEntry l s).out = s.out := by simp [parkEntry]

@[simp] theorem armPark_frame (l : Launch) (pos : Pos) (s : State) :
    (armPark l pos s).pending = s.pending ∧ (armPark l pos s).pass = s.pass ∧ (armPark l pos s).fetch = s.fetch ∧
      (armPark l pos s).run = s.run ∧ (armPark l pos s).time = s.time ∧ (armPark l pos s).plan = s.plan ∧
      (armPark l pos s).image = s.image ∧ (armPark l pos s).recover = s.recover ∧
      (armPark l pos s).report = s.report ∧ (armPark l pos s).watch = s.watch ∧
      (armPark l pos s).history = s.history ∧ (armPark l pos s).setup = s.setup ∧
      (armPark l pos s).tally = s.tally ∧ (armPark l pos s).pins = s.pins ∧ (armPark l pos s).out = s.out := by
  simp only [armPark]
  (repeat' split) <;> simp

@[simp] theorem trackTE_frame (e : PathEntry) (st : Station) (q : Pos) (s : State) :
    (trackTE e st q s).pending = s.pending ∧ (trackTE e st q s).fetch = s.fetch ∧
      (trackTE e st q s).time = s.time ∧ (trackTE e st q s).recover = s.recover ∧
      (trackTE e st q s).setup = s.setup ∧ (trackTE e st q s).pins = s.pins := by
  simp only [trackTE]
  (repeat' split) <;> simp

@[simp] theorem metTE_frame (e : PathEntry) (st : Station) (q : Pos) (s : State) :
    (metTE e st q s).pending = s.pending ∧ (metTE e st q s).fetch = s.fetch ∧ (metTE e st q s).time = s.time ∧
      (metTE e st q s).recover = s.recover ∧ (metTE e st q s).setup = s.setup ∧ (metTE e st q s).pins = s.pins := by simp [metTE]

@[simp] theorem matchEdge_frame (e : Edge) (st : Station) (it : Item) (x : PathEntry) (q : Pos) (s : State) :
    (matchEdge e st it x q s).pending = s.pending ∧ (matchEdge e st it x q s).time = s.time ∧
      (matchEdge e st it x q s).setup = s.setup ∧ (matchEdge e st it x q s).pins = s.pins := by
  simp only [matchEdge]
  (repeat' split) <;> simp

@[simp] theorem offerEdge_frame (e : Edge) (st : Station) (q : Pos) (s : State) :
    (offerEdge e st q s).pending = s.pending ∧ (offerEdge e st q s).time = s.time ∧
      (offerEdge e st q s).setup = s.setup ∧ (offerEdge e st q s).pins = s.pins := by
  simp only [offerEdge]
  (repeat' split) <;> simp

@[simp] theorem jog_frame (e : PathEntry) (r : Route) (s : State) :
    (jog e r s).pending = s.pending ∧ (jog e r s).pass = s.pass ∧ (jog e r s).fetch = s.fetch ∧
      (jog e r s).run = s.run ∧ (jog e r s).time = s.time ∧ (jog e r s).expect = s.expect ∧
      (jog e r s).plan = s.plan ∧ (jog e r s).image = s.image ∧ (jog e r s).recover = s.recover ∧
      (jog e r s).report = s.report ∧ (jog e r s).watch = s.watch ∧ (jog e r s).history = s.history ∧
      (jog e r s).setup = s.setup ∧ (jog e r s).tally = s.tally ∧ (jog e r s).pins = s.pins ∧
      (jog e r s).out = s.out := by
  simp only [jog]
  (repeat' split) <;> simp

@[simp] theorem divert_frame (e : PathEntry) (s : State) :
    (divert e s).pending = s.pending ∧ (divert e s).pass = s.pass ∧ (divert e s).time = s.time ∧
      (divert e s).setup = s.setup ∧ (divert e s).tally = s.tally ∧ (divert e s).pins = s.pins := by
  simp only [divert]
  (repeat' split) <;> simp

@[simp] theorem topEvent_frame (e : PathEntry) (side : Side) (r : SideRec) (pos : Pos) (s : State) :
    (topEvent e side r pos s).pending = s.pending ∧ (topEvent e side r pos s).pass = s.pass ∧
      (topEvent e side r pos s).fetch = s.fetch ∧ (topEvent e side r pos s).time = s.time ∧
      (topEvent e side r pos s).plan = s.plan ∧ (topEvent e side r pos s).track = s.track ∧
      (topEvent e side r pos s).recover = s.recover ∧ (topEvent e side r pos s).setup = s.setup ∧
      (topEvent e side r pos s).tally = s.tally ∧ (topEvent e side r pos s).pins = s.pins := by simp [topEvent]

@[simp] theorem checkSide_frame (e : PathEntry) (c : CurrentSide) (pos : Pos) (s : State) :
    (checkSide e c pos s).pending = s.pending ∧ (checkSide e c pos s).pass = s.pass ∧
      (checkSide e c pos s).run = s.run ∧ (checkSide e c pos s).time = s.time ∧
      (checkSide e c pos s).recover = s.recover ∧ (checkSide e c pos s).report = s.report ∧
      (checkSide e c pos s).watch = s.watch ∧ (checkSide e c pos s).setup = s.setup ∧
      (checkSide e c pos s).tally = s.tally ∧ (checkSide e c pos s).pins = s.pins ∧
      (checkSide e c pos s).out = s.out := by
  simp only [checkSide]
  (repeat' split) <;> simp

@[simp] theorem offerAccess_frame (a : Access) (outcome : PolicyOutcome) (s : State) :
    (offerAccess a outcome s).pending = s.pending ∧ (offerAccess a outcome s).pass = s.pass ∧
      (offerAccess a outcome s).fetch = s.fetch ∧ (offerAccess a outcome s).time = s.time ∧
      (offerAccess a outcome s).expect = s.expect ∧ (offerAccess a outcome s).plan = s.plan ∧
      (offerAccess a outcome s).track = s.track ∧ (offerAccess a outcome s).image = s.image ∧
      (offerAccess a outcome s).recover = s.recover ∧ (offerAccess a outcome s).setup = s.setup ∧
      (offerAccess a outcome s).tally = s.tally ∧ (offerAccess a outcome s).pins = s.pins := by simp [offerAccess]

@[simp] theorem forward_frame (f : Forwarded) (s : State) :
    (forward f s).pending = s.pending ∧ (forward f s).fetch = s.fetch ∧ (forward f s).run = s.run ∧
      (forward f s).time = s.time ∧ (forward f s).expect = s.expect ∧ (forward f s).plan = s.plan ∧
      (forward f s).track = s.track ∧ (forward f s).image = s.image ∧ (forward f s).recover = s.recover ∧
      (forward f s).report = s.report ∧ (forward f s).watch = s.watch ∧ (forward f s).history = s.history ∧
      (forward f s).setup = s.setup ∧ (forward f s).tally = s.tally ∧ (forward f s).pins = s.pins ∧
      (forward f s).out = s.out := by simp [forward]

@[simp] theorem recordPolicy_frame (row : Option PolicyRow) (outcome : PolicyOutcome) (f : Forwarded) (s : State) :
    (recordPolicy row outcome f s).pending = s.pending ∧ (recordPolicy row outcome f s).pass = s.pass ∧
      (recordPolicy row outcome f s).fetch = s.fetch ∧ (recordPolicy row outcome f s).run = s.run ∧
      (recordPolicy row outcome f s).time = s.time ∧ (recordPolicy row outcome f s).expect = s.expect ∧
      (recordPolicy row outcome f s).plan = s.plan ∧ (recordPolicy row outcome f s).track = s.track ∧
      (recordPolicy row outcome f s).image = s.image ∧ (recordPolicy row outcome f s).recover = s.recover ∧
      (recordPolicy row outcome f s).watch = s.watch ∧ (recordPolicy row outcome f s).history = s.history ∧
      (recordPolicy row outcome f s).setup = s.setup ∧ (recordPolicy row outcome f s).tally = s.tally ∧
      (recordPolicy row outcome f s).pins = s.pins ∧ (recordPolicy row outcome f s).out = s.out := by
  simp only [recordPolicy]
  (repeat' split) <;> simp

@[simp] theorem portOutcome_frame (outcome : PolicyOutcome) (f : Forwarded) (s : State) :
    (portOutcome outcome f s).pending = s.pending ∧ (portOutcome outcome f s).fetch = s.fetch ∧
      (portOutcome outcome f s).run = s.run ∧ (portOutcome outcome f s).time = s.time ∧
      (portOutcome outcome f s).expect = s.expect ∧ (portOutcome outcome f s).plan = s.plan ∧
      (portOutcome outcome f s).track = s.track ∧ (portOutcome outcome f s).image = s.image ∧
      (portOutcome outcome f s).recover = s.recover ∧ (portOutcome outcome f s).report = s.report ∧
      (portOutcome outcome f s).watch = s.watch ∧ (portOutcome outcome f s).history = s.history ∧
      (portOutcome outcome f s).setup = s.setup ∧ (portOutcome outcome f s).tally = s.tally ∧
      (portOutcome outcome f s).pins = s.pins := by
  simp only [portOutcome]
  (repeat' split) <;> simp

@[simp] theorem takeAccess_frame (a : Access) (s : State) :
    (takeAccess a s).pending = s.pending ∧ (takeAccess a s).fetch = s.fetch ∧ (takeAccess a s).time = s.time ∧
      (takeAccess a s).expect = s.expect ∧ (takeAccess a s).plan = s.plan ∧ (takeAccess a s).track = s.track ∧
      (takeAccess a s).image = s.image ∧ (takeAccess a s).recover = s.recover ∧ (takeAccess a s).setup = s.setup ∧
      (takeAccess a s).tally = s.tally ∧ (takeAccess a s).pins = s.pins := by
  simp only [takeAccess]
  (repeat' split) <;> simp

@[simp] theorem atPort_frame (a : Access) (s : State) :
    (atPort a s).pending = s.pending ∧ (atPort a s).fetch = s.fetch ∧ (atPort a s).time = s.time ∧
      (atPort a s).expect = s.expect ∧ (atPort a s).plan = s.plan ∧ (atPort a s).track = s.track ∧
      (atPort a s).image = s.image ∧ (atPort a s).recover = s.recover ∧ (atPort a s).setup = s.setup ∧
      (atPort a s).tally = s.tally ∧ (atPort a s).pins = s.pins := by
  simp only [atPort]
  (repeat' split) <;> simp

@[simp] theorem grant_frame (s : State) :
    (grant s).pending = s.pending ∧ (grant s).fetch = s.fetch ∧ (grant s).run = s.run ∧ (grant s).time = s.time ∧
      (grant s).expect = s.expect ∧ (grant s).plan = s.plan ∧ (grant s).track = s.track ∧
      (grant s).image = s.image ∧ (grant s).recover = s.recover ∧ (grant s).report = s.report ∧
      (grant s).watch = s.watch ∧ (grant s).history = s.history ∧ (grant s).setup = s.setup ∧
      (grant s).tally = s.tally ∧ (grant s).pins = s.pins ∧ (grant s).out = s.out := by
  simp only [grant]
  (repeat' split) <;> simp

@[simp] theorem notePost_frame (i : Nat) (s : State) :
    (notePost i s).pending = s.pending ∧ (notePost i s).pass = s.pass ∧ (notePost i s).run = s.run ∧
      (notePost i s).time = s.time ∧ (notePost i s).expect = s.expect ∧ (notePost i s).plan = s.plan ∧
      (notePost i s).track = s.track ∧ (notePost i s).image = s.image ∧ (notePost i s).recover = s.recover ∧
      (notePost i s).report = s.report ∧ (notePost i s).watch = s.watch ∧ (notePost i s).history = s.history ∧
      (notePost i s).setup = s.setup ∧ (notePost i s).tally = s.tally ∧ (notePost i s).pins = s.pins ∧
      (notePost i s).out = s.out := by simp [notePost]

@[simp] theorem pushSetupRead_frame (s : State) :
    (pushSetupRead s).pending = s.pending ∧ (pushSetupRead s).fetch = s.fetch ∧ (pushSetupRead s).run = s.run ∧
      (pushSetupRead s).time = s.time ∧ (pushSetupRead s).expect = s.expect ∧ (pushSetupRead s).plan = s.plan ∧
      (pushSetupRead s).track = s.track ∧ (pushSetupRead s).image = s.image ∧
      (pushSetupRead s).recover = s.recover ∧ (pushSetupRead s).report = s.report ∧
      (pushSetupRead s).watch = s.watch ∧ (pushSetupRead s).history = s.history ∧
      (pushSetupRead s).tally = s.tally ∧ (pushSetupRead s).pins = s.pins ∧ (pushSetupRead s).out = s.out := by simp [pushSetupRead]

@[simp] theorem fillSetupReads_frame (n : Nat) (s : State) :
    (fillSetupReads n s).pending = s.pending ∧ (fillSetupReads n s).fetch = s.fetch ∧
      (fillSetupReads n s).run = s.run ∧ (fillSetupReads n s).time = s.time ∧
      (fillSetupReads n s).expect = s.expect ∧ (fillSetupReads n s).plan = s.plan ∧
      (fillSetupReads n s).track = s.track ∧ (fillSetupReads n s).image = s.image ∧
      (fillSetupReads n s).recover = s.recover ∧ (fillSetupReads n s).report = s.report ∧
      (fillSetupReads n s).watch = s.watch ∧ (fillSetupReads n s).history = s.history ∧
      (fillSetupReads n s).tally = s.tally ∧ (fillSetupReads n s).pins = s.pins ∧ (fillSetupReads n s).out = s.out := by
  induction n generalizing s with
  | zero => simp [fillSetupReads]
  | succ n ih => (simp only [fillSetupReads]; split) <;> simp [*]

@[simp] theorem beginFetch_frame (s : State) :
    (beginFetch s).pending = s.pending ∧ (beginFetch s).fetch = s.fetch ∧ (beginFetch s).run = s.run ∧
      (beginFetch s).time = s.time ∧ (beginFetch s).expect = s.expect ∧ (beginFetch s).plan = s.plan ∧
      (beginFetch s).track = s.track ∧ (beginFetch s).image = s.image ∧ (beginFetch s).recover = s.recover ∧
      (beginFetch s).report = s.report ∧ (beginFetch s).watch = s.watch ∧ (beginFetch s).history = s.history ∧
      (beginFetch s).tally = s.tally ∧ (beginFetch s).pins = s.pins ∧ (beginFetch s).out = s.out := by simp [beginFetch]

@[simp] theorem noteCommit_frame (s : State) :
    (noteCommit s).pending = s.pending ∧ (noteCommit s).fetch = s.fetch ∧ (noteCommit s).run = s.run ∧
      (noteCommit s).time = s.time ∧ (noteCommit s).expect = s.expect ∧ (noteCommit s).plan = s.plan ∧
      (noteCommit s).track = s.track ∧ (noteCommit s).image = s.image ∧ (noteCommit s).recover = s.recover ∧
      (noteCommit s).watch = s.watch ∧ (noteCommit s).history = s.history ∧ (noteCommit s).tally = s.tally ∧
      (noteCommit s).pins = s.pins ∧ (noteCommit s).out = s.out := by
  simp only [noteCommit]
  (repeat' split) <;> simp

@[simp] theorem noteTail_frame (f : Forwarded) (s : State) :
    (noteTail f s).pending = s.pending ∧ (noteTail f s).pass = s.pass ∧ (noteTail f s).fetch = s.fetch ∧
      (noteTail f s).run = s.run ∧ (noteTail f s).time = s.time ∧ (noteTail f s).expect = s.expect ∧
      (noteTail f s).plan = s.plan ∧ (noteTail f s).track = s.track ∧ (noteTail f s).image = s.image ∧
      (noteTail f s).recover = s.recover ∧ (noteTail f s).watch = s.watch ∧ (noteTail f s).history = s.history ∧
      (noteTail f s).setup = s.setup ∧ (noteTail f s).tally = s.tally ∧ (noteTail f s).pins = s.pins ∧
      (noteTail f s).out = s.out := by
  simp only [noteTail]
  (repeat' split) <;> simp

@[simp] theorem completeWrite_frame (f : Forwarded) (s : State) :
    (completeWrite f s).pending = s.pending ∧ (completeWrite f s).run = s.run ∧ (completeWrite f s).time = s.time ∧
      (completeWrite f s).expect = s.expect ∧ (completeWrite f s).plan = s.plan ∧
      (completeWrite f s).track = s.track ∧ (completeWrite f s).image = s.image ∧
      (completeWrite f s).recover = s.recover ∧ (completeWrite f s).watch = s.watch ∧
      (completeWrite f s).history = s.history ∧ (completeWrite f s).tally = s.tally ∧
      (completeWrite f s).pins = s.pins := by
  simp only [completeWrite]
  (repeat' split) <;> simp

@[simp] theorem completeRead_frame (f : Forwarded) (data : List Byte) (s : State) :
    (completeRead f data s).pending = s.pending ∧ (completeRead f data s).pass = s.pass ∧
      (completeRead f data s).fetch = s.fetch ∧ (completeRead f data s).run = s.run ∧
      (completeRead f data s).time = s.time ∧ (completeRead f data s).expect = s.expect ∧
      (completeRead f data s).plan = s.plan ∧ (completeRead f data s).track = s.track ∧
      (completeRead f data s).recover = s.recover ∧ (completeRead f data s).report = s.report ∧
      (completeRead f data s).watch = s.watch ∧ (completeRead f data s).history = s.history ∧
      (completeRead f data s).setup = s.setup ∧ (completeRead f data s).tally = s.tally ∧
      (completeRead f data s).pins = s.pins := by
  simp only [completeRead]
  (repeat' split) <;> simp

@[simp] theorem issueSlotRead_frame (s : State) :
    (issueSlotRead s).pending = s.pending ∧ (issueSlotRead s).run = s.run ∧ (issueSlotRead s).time = s.time ∧
      (issueSlotRead s).expect = s.expect ∧ (issueSlotRead s).plan = s.plan ∧ (issueSlotRead s).track = s.track ∧
      (issueSlotRead s).image = s.image ∧ (issueSlotRead s).recover = s.recover ∧
      (issueSlotRead s).report = s.report ∧ (issueSlotRead s).watch = s.watch ∧
      (issueSlotRead s).history = s.history ∧ (issueSlotRead s).setup = s.setup ∧
      (issueSlotRead s).tally = s.tally ∧ (issueSlotRead s).pins = s.pins ∧ (issueSlotRead s).out = s.out := by simp [issueSlotRead]

@[simp] theorem handOption_frame (r : Option Record) (s : State) :
    (handOption r s).pending = s.pending ∧ (handOption r s).pass = s.pass ∧ (handOption r s).fetch = s.fetch ∧
      (handOption r s).run = s.run ∧ (handOption r s).time = s.time ∧ (handOption r s).expect = s.expect ∧
      (handOption r s).plan = s.plan ∧ (handOption r s).track = s.track ∧ (handOption r s).image = s.image ∧
      (handOption r s).recover = s.recover ∧ (handOption r s).watch = s.watch ∧
      (handOption r s).history = s.history ∧ (handOption r s).setup = s.setup ∧ (handOption r s).tally = s.tally ∧
      (handOption r s).pins = s.pins ∧ (handOption r s).out = s.out := by
  simp only [handOption]
  (repeat' split) <;> simp

@[simp] theorem finishNow_frame (f : Finish) (s : State) :
    (finishNow f s).pending = s.pending ∧ (finishNow f s).run = s.run ∧ (finishNow f s).time = s.time ∧
      (finishNow f s).recover = s.recover ∧ (finishNow f s).watch = s.watch ∧ (finishNow f s).history = s.history ∧
      (finishNow f s).setup = s.setup ∧ (finishNow f s).tally = s.tally ∧ (finishNow f s).pins = s.pins ∧
      (finishNow f s).out = s.out := by
  simp only [finishNow]
  (repeat' split) <;> simp

@[simp] theorem finishSlot_frame (f : Finish) (s : State) :
    (finishSlot f s).pending = s.pending ∧ (finishSlot f s).run = s.run ∧ (finishSlot f s).time = s.time ∧
      (finishSlot f s).recover = s.recover ∧ (finishSlot f s).watch = s.watch ∧
      (finishSlot f s).history = s.history ∧ (finishSlot f s).setup = s.setup ∧ (finishSlot f s).tally = s.tally ∧
      (finishSlot f s).pins = s.pins ∧ (finishSlot f s).out = s.out := by
  simp only [finishSlot]
  (repeat' split) <;> simp

@[simp] theorem rejectOrder_frame (reason : RejectReason) (slot : List Byte) (s : State) :
    (rejectOrder reason slot s).pending = s.pending ∧ (rejectOrder reason slot s).run = s.run ∧
      (rejectOrder reason slot s).time = s.time ∧ (rejectOrder reason slot s).recover = s.recover ∧
      (rejectOrder reason slot s).watch = s.watch ∧ (rejectOrder reason slot s).history = s.history ∧
      (rejectOrder reason slot s).setup = s.setup ∧ (rejectOrder reason slot s).tally = s.tally ∧
      (rejectOrder reason slot s).pins = s.pins ∧ (rejectOrder reason slot s).out = s.out := by simp [rejectOrder]

@[simp] theorem answerControl_frame (slot : List Byte) (r : ControlResult) (s : State) :
    (answerControl slot r s).pending = s.pending ∧ (answerControl slot r s).run = s.run ∧
      (answerControl slot r s).time = s.time ∧ (answerControl slot r s).recover = s.recover ∧
      (answerControl slot r s).watch = s.watch ∧ (answerControl slot r s).history = s.history ∧
      (answerControl slot r s).setup = s.setup ∧ (answerControl slot r s).tally = s.tally ∧
      (answerControl slot r s).pins = s.pins ∧ (answerControl slot r s).out = s.out := by simp [answerControl]

@[simp] theorem decideRun_frame (s : State) :
    (decideRun s).pending = s.pending ∧ (decideRun s).pass = s.pass ∧ (decideRun s).time = s.time ∧
      (decideRun s).setup = s.setup ∧ (decideRun s).tally = s.tally ∧ (decideRun s).pins = s.pins := by simp [decideRun]

@[simp] theorem dropStale_frame (s : State) :
    (dropStale s).pending = s.pending ∧ (dropStale s).pass = s.pass ∧ (dropStale s).run = s.run ∧
      (dropStale s).time = s.time ∧ (dropStale s).expect = s.expect ∧ (dropStale s).plan = s.plan ∧
      (dropStale s).track = s.track ∧ (dropStale s).image = s.image ∧ (dropStale s).recover = s.recover ∧
      (dropStale s).report = s.report ∧ (dropStale s).watch = s.watch ∧ (dropStale s).history = s.history ∧
      (dropStale s).setup = s.setup ∧ (dropStale s).tally = s.tally ∧ (dropStale s).pins = s.pins ∧
      (dropStale s).out = s.out := by simp [dropStale]

@[simp] theorem deferSheet_frame (s : State) :
    (deferSheet s).pending = s.pending ∧ (deferSheet s).pass = s.pass ∧ (deferSheet s).run = s.run ∧
      (deferSheet s).time = s.time ∧ (deferSheet s).expect = s.expect ∧ (deferSheet s).plan = s.plan ∧
      (deferSheet s).track = s.track ∧ (deferSheet s).image = s.image ∧ (deferSheet s).recover = s.recover ∧
      (deferSheet s).report = s.report ∧ (deferSheet s).watch = s.watch ∧ (deferSheet s).history = s.history ∧
      (deferSheet s).setup = s.setup ∧ (deferSheet s).tally = s.tally ∧ (deferSheet s).pins = s.pins ∧
      (deferSheet s).out = s.out := by simp [deferSheet]

@[simp] theorem acceptSheet_frame (slot : List Byte) (s : State) :
    (acceptSheet slot s).pending = s.pending ∧ (acceptSheet slot s).run = s.run ∧
      (acceptSheet slot s).time = s.time ∧ (acceptSheet slot s).expect = s.expect ∧
      (acceptSheet slot s).plan = s.plan ∧ (acceptSheet slot s).track = s.track ∧
      (acceptSheet slot s).image = s.image ∧ (acceptSheet slot s).recover = s.recover ∧
      (acceptSheet slot s).report = s.report ∧ (acceptSheet slot s).watch = s.watch ∧
      (acceptSheet slot s).history = s.history ∧ (acceptSheet slot s).setup = s.setup ∧
      (acceptSheet slot s).tally = s.tally ∧ (acceptSheet slot s).pins = s.pins ∧ (acceptSheet slot s).out = s.out := by simp [acceptSheet]

@[simp] theorem handleSheet_frame (slot : List Byte) (s : State) :
    (handleSheet slot s).pending = s.pending ∧ (handleSheet slot s).run = s.run ∧
      (handleSheet slot s).time = s.time ∧ (handleSheet slot s).recover = s.recover ∧
      (handleSheet slot s).watch = s.watch ∧ (handleSheet slot s).history = s.history ∧
      (handleSheet slot s).setup = s.setup ∧ (handleSheet slot s).tally = s.tally ∧
      (handleSheet slot s).pins = s.pins ∧ (handleSheet slot s).out = s.out := by
  simp only [handleSheet]
  (repeat' split) <;> simp

@[simp] theorem closeOpen_frame (p : PieceId) (s : State) :
    (closeOpen p s).pending = s.pending ∧ (closeOpen p s).pass = s.pass ∧ (closeOpen p s).run = s.run ∧
      (closeOpen p s).time = s.time ∧ (closeOpen p s).expect = s.expect ∧ (closeOpen p s).plan = s.plan ∧
      (closeOpen p s).track = s.track ∧ (closeOpen p s).image = s.image ∧ (closeOpen p s).recover = s.recover ∧
      (closeOpen p s).report = s.report ∧ (closeOpen p s).watch = s.watch ∧ (closeOpen p s).history = s.history ∧
      (closeOpen p s).setup = s.setup ∧ (closeOpen p s).tally = s.tally ∧ (closeOpen p s).pins = s.pins ∧
      (closeOpen p s).out = s.out := by
  simp only [closeOpen]
  (repeat' split) <;> simp

@[simp] theorem pushDumpWrite_frame (d : Dump) (s : State) :
    (pushDumpWrite d s).pending = s.pending ∧ (pushDumpWrite d s).fetch = s.fetch ∧
      (pushDumpWrite d s).run = s.run ∧ (pushDumpWrite d s).time = s.time ∧ (pushDumpWrite d s).expect = s.expect ∧
      (pushDumpWrite d s).plan = s.plan ∧ (pushDumpWrite d s).track = s.track ∧
      (pushDumpWrite d s).image = s.image ∧ (pushDumpWrite d s).recover = s.recover ∧
      (pushDumpWrite d s).report = s.report ∧ (pushDumpWrite d s).watch = s.watch ∧
      (pushDumpWrite d s).setup = s.setup ∧ (pushDumpWrite d s).tally = s.tally ∧
      (pushDumpWrite d s).pins = s.pins ∧ (pushDumpWrite d s).out = s.out := by simp [pushDumpWrite]

@[simp] theorem fillDump_frame (n : Nat) (s : State) :
    (fillDump n s).pending = s.pending ∧ (fillDump n s).fetch = s.fetch ∧ (fillDump n s).run = s.run ∧
      (fillDump n s).time = s.time ∧ (fillDump n s).expect = s.expect ∧ (fillDump n s).plan = s.plan ∧
      (fillDump n s).track = s.track ∧ (fillDump n s).image = s.image ∧ (fillDump n s).recover = s.recover ∧
      (fillDump n s).report = s.report ∧ (fillDump n s).watch = s.watch ∧ (fillDump n s).setup = s.setup ∧
      (fillDump n s).tally = s.tally ∧ (fillDump n s).pins = s.pins ∧ (fillDump n s).out = s.out := by
  induction n generalizing s with
  | zero => simp [fillDump]
  | succ n ih => (simp only [fillDump]; (repeat' split)) <;> simp [*]

@[simp] theorem endDump_frame (d : Dump) (s : State) :
    (endDump d s).pending = s.pending ∧ (endDump d s).pass = s.pass ∧ (endDump d s).fetch = s.fetch ∧
      (endDump d s).run = s.run ∧ (endDump d s).time = s.time ∧ (endDump d s).expect = s.expect ∧
      (endDump d s).plan = s.plan ∧ (endDump d s).track = s.track ∧ (endDump d s).image = s.image ∧
      (endDump d s).recover = s.recover ∧ (endDump d s).watch = s.watch ∧ (endDump d s).setup = s.setup ∧
      (endDump d s).tally = s.tally ∧ (endDump d s).pins = s.pins ∧ (endDump d s).out = s.out := by simp [endDump]

@[simp] theorem pushZeroHead_frame (s : State) :
    (pushZeroHead s).pending = s.pending ∧ (pushZeroHead s).fetch = s.fetch ∧ (pushZeroHead s).run = s.run ∧
      (pushZeroHead s).time = s.time ∧ (pushZeroHead s).expect = s.expect ∧ (pushZeroHead s).plan = s.plan ∧
      (pushZeroHead s).track = s.track ∧ (pushZeroHead s).image = s.image ∧ (pushZeroHead s).recover = s.recover ∧
      (pushZeroHead s).watch = s.watch ∧ (pushZeroHead s).history = s.history ∧ (pushZeroHead s).setup = s.setup ∧
      (pushZeroHead s).tally = s.tally ∧ (pushZeroHead s).pins = s.pins ∧ (pushZeroHead s).out = s.out := by simp [pushZeroHead]

@[simp] theorem handOver_frame (block : OwnBlock) (s : State) :
    (handOver block s).pending = s.pending ∧ (handOver block s).pins = s.pins := by
  simp only [handOver]
  (repeat' split) <;> simp

@[simp] theorem endFetch_frame (s : State) :
    (endFetch s).pending = s.pending ∧ (endFetch s).pass = s.pass ∧ (endFetch s).fetch = s.fetch ∧
      (endFetch s).run = s.run ∧ (endFetch s).time = s.time ∧ (endFetch s).expect = s.expect ∧
      (endFetch s).plan = s.plan ∧ (endFetch s).track = s.track ∧ (endFetch s).image = s.image ∧
      (endFetch s).recover = s.recover ∧ (endFetch s).watch = s.watch ∧ (endFetch s).history = s.history ∧
      (endFetch s).tally = s.tally ∧ (endFetch s).pins = s.pins ∧ (endFetch s).out = s.out := by
  simp only [endFetch]
  (repeat' split) <;> simp

@[simp] theorem noteSetupRead_frame (ok : Bool) (data : List Byte) (s : State) :
    (noteSetupRead ok data s).pending = s.pending ∧ (noteSetupRead ok data s).pass = s.pass ∧
      (noteSetupRead ok data s).fetch = s.fetch ∧ (noteSetupRead ok data s).run = s.run ∧
      (noteSetupRead ok data s).time = s.time ∧ (noteSetupRead ok data s).expect = s.expect ∧
      (noteSetupRead ok data s).plan = s.plan ∧ (noteSetupRead ok data s).track = s.track ∧
      (noteSetupRead ok data s).image = s.image ∧ (noteSetupRead ok data s).recover = s.recover ∧
      (noteSetupRead ok data s).watch = s.watch ∧ (noteSetupRead ok data s).history = s.history ∧
      (noteSetupRead ok data s).tally = s.tally ∧ (noteSetupRead ok data s).pins = s.pins ∧
      (noteSetupRead ok data s).out = s.out := by simp [noteSetupRead]

@[simp] theorem refuseSetup_frame (reason : SetupOutcome) (s : State) :
    (refuseSetup reason s).pending = s.pending ∧ (refuseSetup reason s).pass = s.pass ∧
      (refuseSetup reason s).fetch = s.fetch ∧ (refuseSetup reason s).run = s.run ∧
      (refuseSetup reason s).time = s.time ∧ (refuseSetup reason s).expect = s.expect ∧
      (refuseSetup reason s).plan = s.plan ∧ (refuseSetup reason s).track = s.track ∧
      (refuseSetup reason s).image = s.image ∧ (refuseSetup reason s).recover = s.recover ∧
      (refuseSetup reason s).watch = s.watch ∧ (refuseSetup reason s).history = s.history ∧
      (refuseSetup reason s).tally = s.tally ∧ (refuseSetup reason s).pins = s.pins ∧
      (refuseSetup reason s).out = s.out := by simp [refuseSetup]

@[simp] theorem enforceSetup_frame (s : State) :
    (enforceSetup s).pending = s.pending ∧ (enforceSetup s).pass = s.pass ∧ (enforceSetup s).fetch = s.fetch ∧
      (enforceSetup s).run = s.run ∧ (enforceSetup s).time = s.time ∧ (enforceSetup s).expect = s.expect ∧
      (enforceSetup s).plan = s.plan ∧ (enforceSetup s).track = s.track ∧ (enforceSetup s).image = s.image ∧
      (enforceSetup s).recover = s.recover ∧ (enforceSetup s).report = s.report ∧
      (enforceSetup s).watch = s.watch ∧ (enforceSetup s).history = s.history ∧ (enforceSetup s).tally = s.tally ∧
      (enforceSetup s).pins = s.pins ∧ (enforceSetup s).out = s.out := by simp [enforceSetup]

@[simp] theorem acceptBlocks_frame (s : State) :
    (acceptBlocks s).pending = s.pending ∧ (acceptBlocks s).run = s.run ∧ (acceptBlocks s).time = s.time ∧
      (acceptBlocks s).image = s.image ∧ (acceptBlocks s).recover = s.recover ∧ (acceptBlocks s).watch = s.watch ∧
      (acceptBlocks s).history = s.history ∧ (acceptBlocks s).setup = s.setup ∧ (acceptBlocks s).tally = s.tally ∧
      (acceptBlocks s).pins = s.pins ∧ (acceptBlocks s).out = s.out := by simp [acceptBlocks]

@[simp] theorem headOfAcceptance_frame (s : State) :
    (headOfAcceptance s).pending = s.pending ∧ (headOfAcceptance s).fetch = s.fetch ∧
      (headOfAcceptance s).run = s.run ∧ (headOfAcceptance s).time = s.time ∧
      (headOfAcceptance s).expect = s.expect ∧ (headOfAcceptance s).plan = s.plan ∧
      (headOfAcceptance s).track = s.track ∧ (headOfAcceptance s).image = s.image ∧
      (headOfAcceptance s).recover = s.recover ∧ (headOfAcceptance s).watch = s.watch ∧
      (headOfAcceptance s).history = s.history ∧ (headOfAcceptance s).setup = s.setup ∧
      (headOfAcceptance s).tally = s.tally ∧ (headOfAcceptance s).pins = s.pins ∧ (headOfAcceptance s).out = s.out := by
  simp only [headOfAcceptance]
  (repeat' split) <;> simp

@[simp] theorem acceptSetup_frame (s : State) :
    (acceptSetup s).pending = s.pending ∧ (acceptSetup s).time = s.time ∧ (acceptSetup s).image = s.image ∧
      (acceptSetup s).recover = s.recover ∧ (acceptSetup s).watch = s.watch ∧ (acceptSetup s).history = s.history ∧
      (acceptSetup s).tally = s.tally ∧ (acceptSetup s).pins = s.pins ∧ (acceptSetup s).out = s.out := by
  simp only [acceptSetup]
  (repeat' split) <;> simp

@[simp] theorem issueRecord_frame (q : Queued) (qs : List Queued) (s : State) :
    (issueRecord q qs s).pending = s.pending ∧ (issueRecord q qs s).fetch = s.fetch ∧
      (issueRecord q qs s).run = s.run ∧ (issueRecord q qs s).time = s.time ∧
      (issueRecord q qs s).expect = s.expect ∧ (issueRecord q qs s).plan = s.plan ∧
      (issueRecord q qs s).track = s.track ∧ (issueRecord q qs s).image = s.image ∧
      (issueRecord q qs s).recover = s.recover ∧ (issueRecord q qs s).watch = s.watch ∧
      (issueRecord q qs s).history = s.history ∧ (issueRecord q qs s).setup = s.setup ∧
      (issueRecord q qs s).tally = s.tally ∧ (issueRecord q qs s).pins = s.pins ∧ (issueRecord q qs s).out = s.out := by simp [issueRecord]

@[simp] theorem settleHit_frame (r : Record) (s : State) :
    (settleHit r s).pending = s.pending ∧ (settleHit r s).pass = s.pass ∧ (settleHit r s).fetch = s.fetch ∧
      (settleHit r s).run = s.run ∧ (settleHit r s).time = s.time ∧ (settleHit r s).expect = s.expect ∧
      (settleHit r s).plan = s.plan ∧ (settleHit r s).track = s.track ∧ (settleHit r s).image = s.image ∧
      (settleHit r s).recover = s.recover ∧ (settleHit r s).report = s.report ∧
      (settleHit r s).history = s.history ∧ (settleHit r s).setup = s.setup ∧ (settleHit r s).tally = s.tally ∧
      (settleHit r s).pins = s.pins ∧ (settleHit r s).out = s.out := by
  simp only [settleHit]
  (repeat' split) <;> simp

@[simp] theorem recordWritten_frame (q : Queued) (qs : List Queued) (s : State) :
    (recordWritten q qs s).pending = s.pending ∧ (recordWritten q qs s).pass = s.pass ∧
      (recordWritten q qs s).fetch = s.fetch ∧ (recordWritten q qs s).run = s.run ∧
      (recordWritten q qs s).time = s.time ∧ (recordWritten q qs s).expect = s.expect ∧
      (recordWritten q qs s).plan = s.plan ∧ (recordWritten q qs s).track = s.track ∧
      (recordWritten q qs s).image = s.image ∧ (recordWritten q qs s).recover = s.recover ∧
      (recordWritten q qs s).history = s.history ∧ (recordWritten q qs s).setup = s.setup ∧
      (recordWritten q qs s).tally = s.tally ∧ (recordWritten q qs s).pins = s.pins ∧
      (recordWritten q qs s).out = s.out := by simp [recordWritten]

@[simp] theorem issueHead_frame (s : State) :
    (issueHead s).pending = s.pending ∧ (issueHead s).fetch = s.fetch ∧ (issueHead s).run = s.run ∧
      (issueHead s).time = s.time ∧ (issueHead s).expect = s.expect ∧ (issueHead s).plan = s.plan ∧
      (issueHead s).track = s.track ∧ (issueHead s).image = s.image ∧ (issueHead s).recover = s.recover ∧
      (issueHead s).watch = s.watch ∧ (issueHead s).history = s.history ∧ (issueHead s).setup = s.setup ∧
      (issueHead s).tally = s.tally ∧ (issueHead s).pins = s.pins ∧ (issueHead s).out = s.out := by simp [issueHead]

@[simp] theorem noteDumpWrite_frame (d : Dump) (s : State) :
    (noteDumpWrite d s).pending = s.pending ∧ (noteDumpWrite d s).pass = s.pass ∧
      (noteDumpWrite d s).fetch = s.fetch ∧ (noteDumpWrite d s).run = s.run ∧ (noteDumpWrite d s).time = s.time ∧
      (noteDumpWrite d s).expect = s.expect ∧ (noteDumpWrite d s).plan = s.plan ∧
      (noteDumpWrite d s).track = s.track ∧ (noteDumpWrite d s).image = s.image ∧
      (noteDumpWrite d s).recover = s.recover ∧ (noteDumpWrite d s).watch = s.watch ∧
      (noteDumpWrite d s).setup = s.setup ∧ (noteDumpWrite d s).tally = s.tally ∧
      (noteDumpWrite d s).pins = s.pins ∧ (noteDumpWrite d s).out = s.out := by
  simp only [noteDumpWrite]
  (repeat' split) <;> simp

@[simp] theorem blockError_frame (k : OwnKind) (s : State) :
    (blockError k s).pending = s.pending ∧ (blockError k s).pass = s.pass ∧ (blockError k s).run = s.run ∧
      (blockError k s).time = s.time ∧ (blockError k s).expect = s.expect ∧ (blockError k s).plan = s.plan ∧
      (blockError k s).track = s.track ∧ (blockError k s).image = s.image ∧ (blockError k s).recover = s.recover ∧
      (blockError k s).watch = s.watch ∧ (blockError k s).tally = s.tally ∧ (blockError k s).pins = s.pins ∧
      (blockError k s).out = s.out := by
  simp only [blockError]
  (repeat' split) <;> simp

@[simp] theorem flagError_frame (s : State) :
    (flagError s).pending = s.pending ∧ (flagError s).fetch = s.fetch ∧ (flagError s).run = s.run ∧
      (flagError s).time = s.time ∧ (flagError s).expect = s.expect ∧ (flagError s).plan = s.plan ∧
      (flagError s).track = s.track ∧ (flagError s).image = s.image ∧ (flagError s).recover = s.recover ∧
      (flagError s).report = s.report ∧ (flagError s).watch = s.watch ∧ (flagError s).history = s.history ∧
      (flagError s).setup = s.setup ∧ (flagError s).tally = s.tally ∧ (flagError s).pins = s.pins ∧
      (flagError s).out = s.out := by simp [flagError]

@[simp] theorem ownError_frame (k : OwnKind) (s : State) :
    (ownError k s).pending = s.pending ∧ (ownError k s).time = s.time ∧ (ownError k s).tally = s.tally ∧
      (ownError k s).pins = s.pins := by
  simp only [ownError]
  (repeat' split) <;> simp

@[simp] theorem handRestored_frame (s : State) :
    (handRestored s).pending = s.pending ∧ (handRestored s).pass = s.pass ∧ (handRestored s).fetch = s.fetch ∧
      (handRestored s).run = s.run ∧ (handRestored s).time = s.time ∧ (handRestored s).expect = s.expect ∧
      (handRestored s).plan = s.plan ∧ (handRestored s).track = s.track ∧ (handRestored s).image = s.image ∧
      (handRestored s).recover = s.recover ∧ (handRestored s).watch = s.watch ∧
      (handRestored s).history = s.history ∧ (handRestored s).setup = s.setup ∧ (handRestored s).tally = s.tally ∧
      (handRestored s).pins = s.pins ∧ (handRestored s).out = s.out := by simp [handRestored]

@[simp] theorem estimatePulse_frame (s : State) :
    (estimatePulse s).pending = s.pending ∧ (estimatePulse s).pass = s.pass ∧ (estimatePulse s).fetch = s.fetch ∧
      (estimatePulse s).run = s.run ∧ (estimatePulse s).expect = s.expect ∧ (estimatePulse s).plan = s.plan ∧
      (estimatePulse s).track = s.track ∧ (estimatePulse s).image = s.image ∧
      (estimatePulse s).recover = s.recover ∧ (estimatePulse s).watch = s.watch ∧
      (estimatePulse s).history = s.history ∧ (estimatePulse s).setup = s.setup ∧
      (estimatePulse s).tally = s.tally ∧ (estimatePulse s).pins = s.pins ∧ (estimatePulse s).out = s.out := by
  simp only [estimatePulse]
  (repeat' split) <;> simp

@[simp] theorem encoderPulse_frame (s : State) :
    (encoderPulse s).pending = s.pending ∧ (encoderPulse s).pass = s.pass ∧ (encoderPulse s).fetch = s.fetch ∧
      (encoderPulse s).run = s.run ∧ (encoderPulse s).expect = s.expect ∧ (encoderPulse s).plan = s.plan ∧
      (encoderPulse s).track = s.track ∧ (encoderPulse s).image = s.image ∧ (encoderPulse s).recover = s.recover ∧
      (encoderPulse s).report = s.report ∧ (encoderPulse s).watch = s.watch ∧
      (encoderPulse s).history = s.history ∧ (encoderPulse s).setup = s.setup ∧ (encoderPulse s).tally = s.tally ∧
      (encoderPulse s).pins = s.pins ∧ (encoderPulse s).out = s.out := by simp [encoderPulse]

@[simp] theorem countTick_frame (s : State) :
    (countTick s).pending = s.pending ∧ (countTick s).pass = s.pass ∧ (countTick s).fetch = s.fetch ∧
      (countTick s).expect = s.expect ∧ (countTick s).plan = s.plan ∧ (countTick s).track = s.track ∧
      (countTick s).image = s.image ∧ (countTick s).recover = s.recover ∧ (countTick s).report = s.report ∧
      (countTick s).watch = s.watch ∧ (countTick s).history = s.history ∧ (countTick s).setup = s.setup ∧
      (countTick s).tally = s.tally ∧ (countTick s).pins = s.pins ∧ (countTick s).out = s.out := by simp [countTick]

@[simp] theorem estimateTick_frame (s : State) :
    (estimateTick s).pending = s.pending ∧ (estimateTick s).pass = s.pass ∧ (estimateTick s).fetch = s.fetch ∧
      (estimateTick s).run = s.run ∧ (estimateTick s).expect = s.expect ∧ (estimateTick s).plan = s.plan ∧
      (estimateTick s).track = s.track ∧ (estimateTick s).image = s.image ∧ (estimateTick s).recover = s.recover ∧
      (estimateTick s).report = s.report ∧ (estimateTick s).watch = s.watch ∧
      (estimateTick s).history = s.history ∧ (estimateTick s).setup = s.setup ∧ (estimateTick s).tally = s.tally ∧
      (estimateTick s).pins = s.pins ∧ (estimateTick s).out = s.out := by simp [estimateTick]

@[simp] theorem widenAll_frame (s : State) :
    (widenAll s).pending = s.pending ∧ (widenAll s).pass = s.pass ∧ (widenAll s).fetch = s.fetch ∧
      (widenAll s).run = s.run ∧ (widenAll s).time = s.time ∧ (widenAll s).plan = s.plan ∧
      (widenAll s).track = s.track ∧ (widenAll s).image = s.image ∧ (widenAll s).recover = s.recover ∧
      (widenAll s).report = s.report ∧ (widenAll s).watch = s.watch ∧ (widenAll s).history = s.history ∧
      (widenAll s).setup = s.setup ∧ (widenAll s).tally = s.tally ∧ (widenAll s).pins = s.pins ∧
      (widenAll s).out = s.out := by simp [widenAll]

@[simp] theorem handLost_frame (s : State) :
    (handLost s).pending = s.pending ∧ (handLost s).pass = s.pass ∧ (handLost s).fetch = s.fetch ∧
      (handLost s).run = s.run ∧ (handLost s).time = s.time ∧ (handLost s).expect = s.expect ∧
      (handLost s).plan = s.plan ∧ (handLost s).track = s.track ∧ (handLost s).image = s.image ∧
      (handLost s).recover = s.recover ∧ (handLost s).watch = s.watch ∧ (handLost s).history = s.history ∧
      (handLost s).setup = s.setup ∧ (handLost s).tally = s.tally ∧ (handLost s).pins = s.pins ∧
      (handLost s).out = s.out := by simp [handLost]

@[simp] theorem enterEstimate_frame (s : State) :
    (enterEstimate s).pending = s.pending ∧ (enterEstimate s).pass = s.pass ∧ (enterEstimate s).fetch = s.fetch ∧
      (enterEstimate s).run = s.run ∧ (enterEstimate s).plan = s.plan ∧ (enterEstimate s).track = s.track ∧
      (enterEstimate s).image = s.image ∧ (enterEstimate s).recover = s.recover ∧
      (enterEstimate s).report = s.report ∧ (enterEstimate s).watch = s.watch ∧
      (enterEstimate s).history = s.history ∧ (enterEstimate s).setup = s.setup ∧
      (enterEstimate s).tally = s.tally ∧ (enterEstimate s).pins = s.pins ∧ (enterEstimate s).out = s.out := by simp [enterEstimate]

@[simp] theorem declareLoss_frame (s : State) :
    (declareLoss s).pending = s.pending ∧ (declareLoss s).pass = s.pass ∧ (declareLoss s).setup = s.setup ∧
      (declareLoss s).tally = s.tally ∧ (declareLoss s).pins = s.pins := by
  simp only [declareLoss]
  (repeat' split) <;> simp

@[simp] theorem tickWork_frame (s : State) :
    (tickWork s).pending = s.pending ∧ (tickWork s).pass = s.pass ∧ (tickWork s).setup = s.setup ∧
      (tickWork s).tally = s.tally ∧ (tickWork s).pins = s.pins := by
  simp only [tickWork]
  (repeat' split) <;> simp

@[simp] theorem setTready_frame (b : Bool) (s : State) :
    (setTready b s).pending = s.pending ∧ (setTready b s).pass = s.pass ∧ (setTready b s).fetch = s.fetch ∧
      (setTready b s).run = s.run ∧ (setTready b s).time = s.time ∧ (setTready b s).expect = s.expect ∧
      (setTready b s).plan = s.plan ∧ (setTready b s).track = s.track ∧ (setTready b s).image = s.image ∧
      (setTready b s).recover = s.recover ∧ (setTready b s).report = s.report ∧ (setTready b s).watch = s.watch ∧
      (setTready b s).history = s.history ∧ (setTready b s).setup = s.setup ∧ (setTready b s).tally = s.tally ∧
      (setTready b s).out = s.out := by simp [setTready]

@[simp] theorem setCover_frame (b : Bool) (s : State) :
    (setCover b s).pending = s.pending ∧ (setCover b s).pass = s.pass ∧ (setCover b s).fetch = s.fetch ∧
      (setCover b s).run = s.run ∧ (setCover b s).time = s.time ∧ (setCover b s).expect = s.expect ∧
      (setCover b s).plan = s.plan ∧ (setCover b s).track = s.track ∧ (setCover b s).image = s.image ∧
      (setCover b s).recover = s.recover ∧ (setCover b s).report = s.report ∧ (setCover b s).watch = s.watch ∧
      (setCover b s).history = s.history ∧ (setCover b s).setup = s.setup ∧ (setCover b s).tally = s.tally ∧
      (setCover b s).out = s.out := by simp [setCover]

@[simp] theorem treadyUp_frame (s : State) :
    (treadyUp s).pending = s.pending ∧ (treadyUp s).pass = s.pass ∧ (treadyUp s).fetch = s.fetch ∧
      (treadyUp s).time = s.time ∧ (treadyUp s).expect = s.expect ∧ (treadyUp s).plan = s.plan ∧
      (treadyUp s).track = s.track ∧ (treadyUp s).image = s.image ∧ (treadyUp s).recover = s.recover ∧
      (treadyUp s).watch = s.watch ∧ (treadyUp s).history = s.history ∧ (treadyUp s).setup = s.setup ∧
      (treadyUp s).tally = s.tally ∧ (treadyUp s).pins = s.pins ∧ (treadyUp s).out = s.out := by
  simp only [treadyUp]
  (repeat' split) <;> simp

@[simp] theorem setTray_frame (t : Fin 4) (b : Bool) (s : State) :
    (setTray t b s).pending = s.pending ∧ (setTray t b s).pass = s.pass ∧ (setTray t b s).fetch = s.fetch ∧
      (setTray t b s).run = s.run ∧ (setTray t b s).time = s.time ∧ (setTray t b s).expect = s.expect ∧
      (setTray t b s).plan = s.plan ∧ (setTray t b s).track = s.track ∧ (setTray t b s).image = s.image ∧
      (setTray t b s).recover = s.recover ∧ (setTray t b s).report = s.report ∧ (setTray t b s).watch = s.watch ∧
      (setTray t b s).history = s.history ∧ (setTray t b s).setup = s.setup ∧ (setTray t b s).tally = s.tally ∧
      (setTray t b s).out = s.out := by simp [setTray]

@[simp] theorem setStacker_frame (k : Stacker) (b : Bool) (s : State) :
    (setStacker k b s).pending = s.pending ∧ (setStacker k b s).pass = s.pass ∧
      (setStacker k b s).fetch = s.fetch ∧ (setStacker k b s).run = s.run ∧ (setStacker k b s).time = s.time ∧
      (setStacker k b s).expect = s.expect ∧ (setStacker k b s).plan = s.plan ∧
      (setStacker k b s).track = s.track ∧ (setStacker k b s).image = s.image ∧
      (setStacker k b s).recover = s.recover ∧ (setStacker k b s).report = s.report ∧
      (setStacker k b s).watch = s.watch ∧ (setStacker k b s).history = s.history ∧
      (setStacker k b s).setup = s.setup ∧ (setStacker k b s).tally = s.tally ∧ (setStacker k b s).out = s.out := by
  simp only [setStacker]
  (repeat' split) <;> simp

@[simp] theorem setSensor_frame (line : Fin 16) (b : Bool) (s : State) :
    (setSensor line b s).pending = s.pending ∧ (setSensor line b s).pass = s.pass ∧
      (setSensor line b s).fetch = s.fetch ∧ (setSensor line b s).run = s.run ∧
      (setSensor line b s).time = s.time ∧ (setSensor line b s).expect = s.expect ∧
      (setSensor line b s).plan = s.plan ∧ (setSensor line b s).track = s.track ∧
      (setSensor line b s).image = s.image ∧ (setSensor line b s).recover = s.recover ∧
      (setSensor line b s).report = s.report ∧ (setSensor line b s).watch = s.watch ∧
      (setSensor line b s).history = s.history ∧ (setSensor line b s).setup = s.setup ∧
      (setSensor line b s).tally = s.tally ∧ (setSensor line b s).out = s.out := by simp [setSensor]

@[simp] theorem setLine_frame (line : Fin 16) (x : Line) (s : State) :
    (setLine line x s).pending = s.pending ∧ (setLine line x s).pass = s.pass ∧
      (setLine line x s).fetch = s.fetch ∧ (setLine line x s).run = s.run ∧ (setLine line x s).time = s.time ∧
      (setLine line x s).plan = s.plan ∧ (setLine line x s).track = s.track ∧ (setLine line x s).image = s.image ∧
      (setLine line x s).recover = s.recover ∧ (setLine line x s).report = s.report ∧
      (setLine line x s).watch = s.watch ∧ (setLine line x s).history = s.history ∧
      (setLine line x s).setup = s.setup ∧ (setLine line x s).tally = s.tally ∧ (setLine line x s).pins = s.pins ∧
      (setLine line x s).out = s.out := by simp [setLine]

@[simp] theorem completeChange_frame (line : Fin 16) (st : Station) (ch : PendingChange) (s : State) :
    (completeChange line st ch s).pending = s.pending ∧ (completeChange line st ch s).time = s.time ∧
      (completeChange line st ch s).setup = s.setup ∧ (completeChange line st ch s).pins = s.pins := by simp [completeChange]

@[simp] theorem openChange_frame (line : Fin 16) (st : Station) (level : Bool) (s : State) :
    (openChange line st level s).pending = s.pending ∧ (openChange line st level s).time = s.time ∧
      (openChange line st level s).setup = s.setup ∧ (openChange line st level s).pins = s.pins := by
  simp only [openChange]
  (repeat' split) <;> simp

@[simp] theorem abandonChange_frame (line : Fin 16) (st : Station) (s : State) :
    (abandonChange line st s).pending = s.pending ∧ (abandonChange line st s).pass = s.pass ∧
      (abandonChange line st s).time = s.time ∧ (abandonChange line st s).setup = s.setup ∧
      (abandonChange line st s).tally = s.tally ∧ (abandonChange line st s).pins = s.pins := by
  simp only [abandonChange]
  (repeat' split) <;> simp

@[simp] theorem rawChange_frame (line : Fin 16) (st : Station) (level : Bool) (s : State) :
    (rawChange line st level s).pending = s.pending ∧ (rawChange line st level s).time = s.time ∧
      (rawChange line st level s).setup = s.setup ∧ (rawChange line st level s).pins = s.pins := by
  simp only [rawChange]
  (repeat' split) <;> simp

@[simp] theorem fireTop_frame (it : Item) (e : PathEntry) (s : State) :
    (fireTop it e s).pending = s.pending ∧ (fireTop it e s).pass = s.pass ∧ (fireTop it e s).fetch = s.fetch ∧
      (fireTop it e s).time = s.time ∧ (fireTop it e s).plan = s.plan ∧ (fireTop it e s).track = s.track ∧
      (fireTop it e s).recover = s.recover ∧ (fireTop it e s).setup = s.setup ∧ (fireTop it e s).tally = s.tally ∧
      (fireTop it e s).pins = s.pins := by
  simp only [fireTop]
  (repeat' split) <;> simp

@[simp] theorem fireCheck_frame (it : Item) (e : PathEntry) (s : State) :
    (fireCheck it e s).pending = s.pending ∧ (fireCheck it e s).pass = s.pass ∧ (fireCheck it e s).run = s.run ∧
      (fireCheck it e s).time = s.time ∧ (fireCheck it e s).recover = s.recover ∧
      (fireCheck it e s).report = s.report ∧ (fireCheck it e s).watch = s.watch ∧
      (fireCheck it e s).setup = s.setup ∧ (fireCheck it e s).tally = s.tally ∧ (fireCheck it e s).pins = s.pins ∧
      (fireCheck it e s).out = s.out := by
  simp only [fireCheck]
  (repeat' split) <;> simp

@[simp] theorem gapOver_frame (s : State) :
    (gapOver s).pending = s.pending ∧ (gapOver s).pass = s.pass ∧ (gapOver s).fetch = s.fetch ∧
      (gapOver s).run = s.run ∧ (gapOver s).time = s.time ∧ (gapOver s).expect = s.expect ∧
      (gapOver s).track = s.track ∧ (gapOver s).image = s.image ∧ (gapOver s).recover = s.recover ∧
      (gapOver s).report = s.report ∧ (gapOver s).watch = s.watch ∧ (gapOver s).history = s.history ∧
      (gapOver s).setup = s.setup ∧ (gapOver s).tally = s.tally ∧ (gapOver s).pins = s.pins ∧
      (gapOver s).out = s.out := by simp [gapOver]

end Sys2Proof.Machine
end

