-- ==== Sys2Proof/Laws/FrameParts.lean ====
section
/-! SUPPORT. What each operation leaves alone inside the fields that it changes: for every operation of the machine one
lemma that lists the parts it never changes. -/

namespace Sys2Proof.Machine

@[simp] theorem tallyAfter_parts (t : Tally) (x : LogicalSheet) (serial : Serial) :
    (tallyAfter t x serial).nextSerial = t.nextSerial ∧ (tallyAfter t x serial).valid = t.valid := by simp [tallyAfter]

/-- A stop with an empty path table breaks no piece (R129). -/
@[simp] theorem breaksPiece_nil (s : State) : s.breaksPiece [] = false := by
  unfold State.breaksPiece
  cases s.track.piece <;> simp

@[simp] theorem handRecord_parts (r : Record) (s : State) :
    (handRecord r s).report.write = s.report.write ∧ (handRecord r s).report.head = s.report.head ∧
      (handRecord r s).report.visible = s.report.visible ∧ (handRecord r s).report.tail = s.report.tail ∧
      (handRecord r s).report.outstanding = s.report.outstanding ∧
      (handRecord r s).report.sinceHead = s.report.sinceHead ∧ (handRecord r s).report.halted = s.report.halted ∧
      (handRecord r s).report.headWaits = s.report.headWaits := by simp [handRecord]

@[simp] theorem handOrFold_parts (f : Record → Option Record) (new : Record) (s : State) :
    (handOrFold f new s).report.write = s.report.write ∧ (handOrFold f new s).report.head = s.report.head ∧
      (handOrFold f new s).report.visible = s.report.visible ∧ (handOrFold f new s).report.tail = s.report.tail ∧
      (handOrFold f new s).report.outstanding = s.report.outstanding ∧
      (handOrFold f new s).report.sinceHead = s.report.sinceHead ∧
      (handOrFold f new s).report.halted = s.report.halted ∧
      (handOrFold f new s).report.headWaits = s.report.headWaits := by
  simp only [handOrFold]
  (repeat' split) <;> simp

@[simp] theorem handState_parts (old : RunState) (cause : Option StopCause) (s : State) :
    (handState old cause s).report.write = s.report.write ∧ (handState old cause s).report.head = s.report.head ∧
      (handState old cause s).report.visible = s.report.visible ∧
      (handState old cause s).report.tail = s.report.tail ∧
      (handState old cause s).report.outstanding = s.report.outstanding ∧
      (handState old cause s).report.sinceHead = s.report.sinceHead ∧
      (handState old cause s).report.halted = s.report.halted ∧
      (handState old cause s).report.headWaits = s.report.headWaits := by simp [handState]

@[simp] theorem changeRun_parts (new : RunState) (cause : Option StopCause) (s : State) :
    (changeRun new cause s).run.hold = s.run.hold ∧ (changeRun new cause s).run.standby = s.run.standby ∧
      (changeRun new cause s).run.timer = s.run.timer ∧ (changeRun new cause s).report.write = s.report.write ∧
      (changeRun new cause s).report.head = s.report.head ∧
      (changeRun new cause s).report.visible = s.report.visible ∧
      (changeRun new cause s).report.tail = s.report.tail ∧
      (changeRun new cause s).report.outstanding = s.report.outstanding ∧
      (changeRun new cause s).report.sinceHead = s.report.sinceHead ∧
      (changeRun new cause s).report.halted = s.report.halted ∧
      (changeRun new cause s).report.headWaits = s.report.headWaits := by simp [changeRun]

@[simp] theorem handRefusal_parts (outcome : SetupOutcome) (fetched : Byte) (s : State) :
    (handRefusal outcome fetched s).report.write = s.report.write ∧
      (handRefusal outcome fetched s).report.head = s.report.head ∧
      (handRefusal outcome fetched s).report.visible = s.report.visible ∧
      (handRefusal outcome fetched s).report.tail = s.report.tail ∧
      (handRefusal outcome fetched s).report.outstanding = s.report.outstanding ∧
      (handRefusal outcome fetched s).report.sinceHead = s.report.sinceHead ∧
      (handRefusal outcome fetched s).report.halted = s.report.halted ∧
      (handRefusal outcome fetched s).report.headWaits = s.report.headWaits := by simp [handRefusal]

@[simp] theorem handAcceptance_parts (fetched : Byte) (s : State) :
    (handAcceptance fetched s).report.write = s.report.write ∧
      (handAcceptance fetched s).report.head = s.report.head ∧
      (handAcceptance fetched s).report.visible = s.report.visible ∧
      (handAcceptance fetched s).report.tail = s.report.tail ∧
      (handAcceptance fetched s).report.outstanding = s.report.outstanding ∧
      (handAcceptance fetched s).report.sinceHead = s.report.sinceHead ∧
      (handAcceptance fetched s).report.halted = s.report.halted ∧
      (handAcceptance fetched s).report.headWaits = s.report.headWaits := by simp [handAcceptance]

@[simp] theorem handPolicy_parts (row : PolicyRow) (outcome : PolicyField) (f : Forwarded) (value view : Option Nat)
    (s : State) :
    (handPolicy row outcome f value view s).report.write = s.report.write ∧
      (handPolicy row outcome f value view s).report.head = s.report.head ∧
      (handPolicy row outcome f value view s).report.visible = s.report.visible ∧
      (handPolicy row outcome f value view s).report.tail = s.report.tail ∧
      (handPolicy row outcome f value view s).report.outstanding = s.report.outstanding ∧
      (handPolicy row outcome f value view s).report.sinceHead = s.report.sinceHead ∧
      (handPolicy row outcome f value view s).report.halted = s.report.halted ∧
      (handPolicy row outcome f value view s).report.headWaits = s.report.headWaits := by simp [handPolicy]

@[simp] theorem appendHist_parts (kind : HistKind) (station : Option Station) (serial : Option Serial) (seq : Option Seq) (launch : Option Launch) (pos : Pos)
    (s : State) :
    (appendHist kind station serial seq launch pos s).history.frozen = s.history.frozen ∧
      (appendHist kind station serial seq launch pos s).history.dump = s.history.dump := by
  simp only [appendHist]
  (repeat' split) <;> simp

@[simp] theorem addItem_parts (it : Item) (s : State) :
    (addItem it s).expect.lines = s.expect.lines := by simp [addItem]

@[simp] theorem armEdge_parts (launch : Launch) (st : Station) (e : Edge) (pos : Pos) (early late : Nat)
    (s : State) :
    (armEdge launch st e pos early late s).expect.lines = s.expect.lines := by simp [armEdge]

@[simp] theorem armLE_parts (launch : Launch) (st : Station) (pos : Pos) (s : State) :
    (armLE launch st pos s).expect.lines = s.expect.lines := by simp [armLE]

@[simp] theorem armTE_parts (launch : Launch) (st : Station) (pos : Pos) (s : State) :
    (armTE launch st pos s).expect.lines = s.expect.lines := by simp [armTE]

@[simp] theorem armEvent_parts (kind : ItemKind) (pos : Pos) (s : State) :
    (armEvent kind pos s).expect.lines = s.expect.lines := by simp [armEvent]

@[simp] theorem withdraw_parts (p : Item → Bool) (s : State) :
    (withdraw p s).expect.lines = s.expect.lines := by simp [withdraw]

@[simp] theorem dropItem_parts (it : Item) (s : State) :
    (dropItem it s).expect.lines = s.expect.lines := by simp [dropItem]

@[simp] theorem updEntry_parts (l : Launch) (f : PathEntry → PathEntry) (s : State) :
    (updEntry l f s).track.loop = s.track.loop ∧ (updEntry l f s).track.divsel = s.track.divsel ∧
      (updEntry l f s).track.jogA = s.track.jogA ∧ (updEntry l f s).track.jogB = s.track.jogB ∧
      (updEntry l f s).track.piece = s.track.piece ∧ (updEntry l f s).track.store = s.track.store := by simp [updEntry]

@[simp] theorem leaveLoop_parts (l : Launch) (length : Nat) (s : State) :
    (leaveLoop l length s).plan.staged = s.plan.staged ∧ (leaveLoop l length s).plan.gapMet = s.plan.gapMet ∧
      (leaveLoop l length s).plan.lastRelease = s.plan.lastRelease ∧
      (leaveLoop l length s).plan.lastStacker = s.plan.lastStacker ∧
      (leaveLoop l length s).plan.counter = s.plan.counter ∧ (leaveLoop l length s).track.path = s.track.path ∧
      (leaveLoop l length s).track.divsel = s.track.divsel ∧ (leaveLoop l length s).track.jogA = s.track.jogA ∧
      (leaveLoop l length s).track.jogB = s.track.jogB ∧ (leaveLoop l length s).track.piece = s.track.piece ∧
      (leaveLoop l length s).track.store = s.track.store := by
  simp only [leaveLoop]
  (repeat' split) <;> simp

@[simp] theorem forgetStacker_parts (l : Launch) (s : State) :
    (forgetStacker l s).plan.staged = s.plan.staged ∧ (forgetStacker l s).plan.gapMet = s.plan.gapMet ∧
      (forgetStacker l s).plan.lastRelease = s.plan.lastRelease ∧
      (forgetStacker l s).plan.counter = s.plan.counter ∧ (forgetStacker l s).plan.commitment = s.plan.commitment := by
  simp only [forgetStacker]
  (repeat' split) <;> simp

@[simp] theorem endSide_parts (l : Launch) (s : State) :
    (endSide l s).expect.lines = s.expect.lines ∧ (endSide l s).image.port = s.image.port := by
  simp only [endSide]
  (repeat' split) <;> simp

@[simp] theorem leavePath_parts (e : PathEntry) (s : State) :
    (leavePath e s).expect.lines = s.expect.lines ∧ (leavePath e s).plan.staged = s.plan.staged ∧
      (leavePath e s).plan.gapMet = s.plan.gapMet ∧ (leavePath e s).plan.lastRelease = s.plan.lastRelease ∧
      (leavePath e s).plan.counter = s.plan.counter ∧ (leavePath e s).track.divsel = s.track.divsel ∧
      (leavePath e s).track.jogA = s.track.jogA ∧ (leavePath e s).track.jogB = s.track.jogB ∧
      (leavePath e s).track.piece = s.track.piece ∧ (leavePath e s).track.store = s.track.store ∧
      (leavePath e s).image.port = s.image.port := by simp [leavePath]

@[simp] theorem unlock_parts (seqs : List Seq) (s : State) :
    (unlock seqs s).pass.fwd = s.pass.fwd ∧ (unlock seqs s).pass.own = s.pass.own ∧
      (unlock seqs s).pass.wait = s.pass.wait ∧ (unlock seqs s).pass.granted = s.pass.granted ∧
      (unlock seqs s).pass.memError = s.pass.memError := by simp [unlock]

@[simp] theorem requeue_parts (xs : List LogicalSheet) (s : State) :
    (requeue xs s).fetch.posted = s.fetch.posted ∧ (requeue xs s).fetch.next = s.fetch.next ∧
      (requeue xs s).fetch.inHand = s.fetch.inHand ∧ (requeue xs s).fetch.deferred = s.fetch.deferred ∧
      (requeue xs s).fetch.openPiece = s.fetch.openPiece ∧ (requeue xs s).fetch.counter = s.fetch.counter ∧
      (requeue xs s).fetch.finish = s.fetch.finish := by simp [requeue]

@[simp] theorem pushOwn_parts (a : OwnAccess) (s : State) :
    (pushOwn a s).pass.fwd = s.pass.fwd ∧ (pushOwn a s).pass.wait = s.pass.wait ∧
      (pushOwn a s).pass.granted = s.pass.granted ∧ (pushOwn a s).pass.locks = s.pass.locks ∧
      (pushOwn a s).pass.memError = s.pass.memError := by simp [pushOwn]

@[simp] theorem freePort_parts (s : State) :
    (freePort s).pass.fwd = s.pass.fwd ∧ (freePort s).pass.own = s.pass.own ∧
      (freePort s).pass.wait = s.pass.wait ∧ (freePort s).pass.locks = s.pass.locks ∧
      (freePort s).pass.memError = s.pass.memError := by simp [freePort]

@[simp] theorem makeHit_parts (u : UnitId) (part : HitParticulars) (s : State) :
    (makeHit u part s).report.write = s.report.write ∧ (makeHit u part s).report.head = s.report.head ∧
      (makeHit u part s).report.visible = s.report.visible ∧ (makeHit u part s).report.tail = s.report.tail ∧
      (makeHit u part s).report.outstanding = s.report.outstanding ∧
      (makeHit u part s).report.sinceHead = s.report.sinceHead ∧
      (makeHit u part s).report.halted = s.report.halted ∧ (makeHit u part s).report.headWaits = s.report.headWaits := by simp [makeHit]

@[simp] theorem fireAction_parts (a : WatchAction) (s : State) :
    (fireAction a s).run.state = s.run.state ∧ (fireAction a s).run.standby = s.run.standby ∧
      (fireAction a s).run.timer = s.run.timer ∧ (fireAction a s).history.entries = s.history.entries ∧
      (fireAction a s).history.dump = s.history.dump := by
  simp only [fireAction]
  (repeat' split) <;> simp

@[simp] theorem fire_parts (u : UnitId) (p : WatchProgram) (item : HitItem) (s : State) :
    (fire u p item s).run.state = s.run.state ∧ (fire u p item s).run.standby = s.run.standby ∧
      (fire u p item s).run.timer = s.run.timer ∧ (fire u p item s).report.write = s.report.write ∧
      (fire u p item s).report.head = s.report.head ∧ (fire u p item s).report.visible = s.report.visible ∧
      (fire u p item s).report.tail = s.report.tail ∧ (fire u p item s).report.outstanding = s.report.outstanding ∧
      (fire u p item s).report.sinceHead = s.report.sinceHead ∧ (fire u p item s).report.halted = s.report.halted ∧
      (fire u p item s).report.headWaits = s.report.headWaits ∧
      (fire u p item s).history.entries = s.history.entries ∧ (fire u p item s).history.dump = s.history.dump := by
  simp only [fire]
  (repeat' split) <;> simp

@[simp] theorem countMatch_parts (u : UnitId) (item : HitItem) (s : State) :
    (countMatch u item s).run.state = s.run.state ∧ (countMatch u item s).run.standby = s.run.standby ∧
      (countMatch u item s).run.timer = s.run.timer ∧ (countMatch u item s).report.write = s.report.write ∧
      (countMatch u item s).report.head = s.report.head ∧ (countMatch u item s).report.visible = s.report.visible ∧
      (countMatch u item s).report.tail = s.report.tail ∧
      (countMatch u item s).report.outstanding = s.report.outstanding ∧
      (countMatch u item s).report.sinceHead = s.report.sinceHead ∧
      (countMatch u item s).report.halted = s.report.halted ∧
      (countMatch u item s).report.headWaits = s.report.headWaits ∧
      (countMatch u item s).history.entries = s.history.entries ∧
      (countMatch u item s).history.dump = s.history.dump := by
  simp only [countMatch]
  (repeat' split) <;> simp

@[simp] theorem offer_parts (item : HitItem) (s : State) :
    (offer item s).run.state = s.run.state ∧ (offer item s).run.standby = s.run.standby ∧
      (offer item s).run.timer = s.run.timer ∧ (offer item s).report.write = s.report.write ∧
      (offer item s).report.head = s.report.head ∧ (offer item s).report.visible = s.report.visible ∧
      (offer item s).report.tail = s.report.tail ∧ (offer item s).report.outstanding = s.report.outstanding ∧
      (offer item s).report.sinceHead = s.report.sinceHead ∧ (offer item s).report.halted = s.report.halted ∧
      (offer item s).report.headWaits = s.report.headWaits ∧ (offer item s).history.entries = s.history.entries ∧
      (offer item s).history.dump = s.history.dump := by
  simp only [offer]
  (repeat' split) <;> simp

@[simp] theorem sheetEvent_parts (kind : SheetEventKind) (hist : HistKind) (station : Option Station) (e : PathEntry) (pos : Pos)
    (s : State) :
    (sheetEvent kind hist station e pos s).run.state = s.run.state ∧
      (sheetEvent kind hist station e pos s).run.standby = s.run.standby ∧
      (sheetEvent kind hist station e pos s).run.timer = s.run.timer ∧
      (sheetEvent kind hist station e pos s).report.write = s.report.write ∧
      (sheetEvent kind hist station e pos s).report.head = s.report.head ∧
      (sheetEvent kind hist station e pos s).report.visible = s.report.visible ∧
      (sheetEvent kind hist station e pos s).report.tail = s.report.tail ∧
      (sheetEvent kind hist station e pos s).report.outstanding = s.report.outstanding ∧
      (sheetEvent kind hist station e pos s).report.sinceHead = s.report.sinceHead ∧
      (sheetEvent kind hist station e pos s).report.halted = s.report.halted ∧
      (sheetEvent kind hist station e pos s).report.headWaits = s.report.headWaits ∧
      (sheetEvent kind hist station e pos s).history.dump = s.history.dump := by simp [sheetEvent]

@[simp] theorem detach_parts (r : SpoilReason) (e : PathEntry) (s : State) :
    (detach r e s).expect.lines = s.expect.lines ∧ (detach r e s).plan.staged = s.plan.staged ∧
      (detach r e s).plan.gapMet = s.plan.gapMet ∧ (detach r e s).plan.lastRelease = s.plan.lastRelease ∧
      (detach r e s).plan.counter = s.plan.counter ∧ (detach r e s).track.divsel = s.track.divsel ∧
      (detach r e s).track.jogA = s.track.jogA ∧ (detach r e s).track.jogB = s.track.jogB ∧
      (detach r e s).track.piece = s.track.piece ∧ (detach r e s).track.store = s.track.store ∧
      (detach r e s).image.port = s.image.port := by
  simp only [detach]
  (repeat' split) <;> simp

@[simp] theorem detachAll_parts (r : SpoilReason) (es : List PathEntry) (s : State) :
    (detachAll r es s).expect.lines = s.expect.lines ∧ (detachAll r es s).plan.staged = s.plan.staged ∧
      (detachAll r es s).plan.gapMet = s.plan.gapMet ∧ (detachAll r es s).plan.lastRelease = s.plan.lastRelease ∧
      (detachAll r es s).plan.counter = s.plan.counter ∧ (detachAll r es s).track.divsel = s.track.divsel ∧
      (detachAll r es s).track.jogA = s.track.jogA ∧ (detachAll r es s).track.jogB = s.track.jogB ∧
      (detachAll r es s).track.piece = s.track.piece ∧ (detachAll r es s).track.store = s.track.store ∧
      (detachAll r es s).image.port = s.image.port := by
  refine ⟨foldl_keeps _ (fun s : State => s.expect.lines) (by intros; simp) es s,
    foldl_keeps _ (fun s : State => s.plan.staged) (by intros; simp) es s,
    foldl_keeps _ (fun s : State => s.plan.gapMet) (by intros; simp) es s,
    foldl_keeps _ (fun s : State => s.plan.lastRelease) (by intros; simp) es s,
    foldl_keeps _ (fun s : State => s.plan.counter) (by intros; simp) es s,
    foldl_keeps _ (fun s : State => s.track.divsel) (by intros; simp) es s,
    foldl_keeps _ (fun s : State => s.track.jogA) (by intros; simp) es s,
    foldl_keeps _ (fun s : State => s.track.jogB) (by intros; simp) es s,
    foldl_keeps _ (fun s : State => s.track.piece) (by intros; simp) es s,
    foldl_keeps _ (fun s : State => s.track.store) (by intros; simp) es s,
    foldl_keeps _ (fun s : State => s.image.port) (by intros; simp) es s⟩

@[simp] theorem underrun_parts (e : PathEntry) (side : Side) (pos : Pos) (s : State) :
    (underrun e side pos s).fetch.posted = s.fetch.posted ∧ (underrun e side pos s).fetch.next = s.fetch.next ∧
      (underrun e side pos s).fetch.inHand = s.fetch.inHand ∧
      (underrun e side pos s).fetch.deferred = s.fetch.deferred ∧
      (underrun e side pos s).fetch.openPiece = s.fetch.openPiece ∧
      (underrun e side pos s).fetch.counter = s.fetch.counter ∧
      (underrun e side pos s).fetch.finish = s.fetch.finish ∧
      (underrun e side pos s).expect.lines = s.expect.lines ∧ (underrun e side pos s).plan.staged = s.plan.staged ∧
      (underrun e side pos s).plan.gapMet = s.plan.gapMet ∧
      (underrun e side pos s).plan.lastRelease = s.plan.lastRelease ∧
      (underrun e side pos s).plan.counter = s.plan.counter ∧
      (underrun e side pos s).track.divsel = s.track.divsel ∧ (underrun e side pos s).track.jogA = s.track.jogA ∧
      (underrun e side pos s).track.jogB = s.track.jogB ∧ (underrun e side pos s).track.piece = s.track.piece ∧
      (underrun e side pos s).track.store = s.track.store ∧ (underrun e side pos s).image.port = s.image.port ∧
      (underrun e side pos s).history.frozen = s.history.frozen ∧
      (underrun e side pos s).history.dump = s.history.dump := by simp [underrun]

@[simp] theorem reportSpoiled_parts (e : PathEntry) (reason : SpoilReason) (place : Option Station) (pos : Pos)
    (s : State) :
    (reportSpoiled e reason place pos s).run.state = s.run.state ∧
      (reportSpoiled e reason place pos s).run.standby = s.run.standby ∧
      (reportSpoiled e reason place pos s).run.timer = s.run.timer ∧
      (reportSpoiled e reason place pos s).report.write = s.report.write ∧
      (reportSpoiled e reason place pos s).report.head = s.report.head ∧
      (reportSpoiled e reason place pos s).report.visible = s.report.visible ∧
      (reportSpoiled e reason place pos s).report.tail = s.report.tail ∧
      (reportSpoiled e reason place pos s).report.outstanding = s.report.outstanding ∧
      (reportSpoiled e reason place pos s).report.sinceHead = s.report.sinceHead ∧
      (reportSpoiled e reason place pos s).report.halted = s.report.halted ∧
      (reportSpoiled e reason place pos s).report.headWaits = s.report.headWaits ∧
      (reportSpoiled e reason place pos s).history.dump = s.history.dump := by simp [reportSpoiled]

@[simp] theorem breakPiece_parts (s : State) :
    (breakPiece s).fetch.posted = s.fetch.posted ∧ (breakPiece s).fetch.next = s.fetch.next ∧
      (breakPiece s).fetch.inHand = s.fetch.inHand ∧ (breakPiece s).fetch.deferred = s.fetch.deferred ∧
      (breakPiece s).fetch.openPiece = s.fetch.openPiece ∧ (breakPiece s).fetch.counter = s.fetch.counter ∧
      (breakPiece s).fetch.finish = s.fetch.finish ∧ (breakPiece s).track.path = s.track.path ∧
      (breakPiece s).track.loop = s.track.loop ∧ (breakPiece s).track.divsel = s.track.divsel ∧
      (breakPiece s).track.jogA = s.track.jogA ∧ (breakPiece s).track.jogB = s.track.jogB ∧
      (breakPiece s).report.write = s.report.write ∧ (breakPiece s).report.head = s.report.head ∧
      (breakPiece s).report.visible = s.report.visible ∧ (breakPiece s).report.tail = s.report.tail ∧
      (breakPiece s).report.outstanding = s.report.outstanding ∧
      (breakPiece s).report.sinceHead = s.report.sinceHead ∧ (breakPiece s).report.halted = s.report.halted ∧
      (breakPiece s).report.headWaits = s.report.headWaits := by
  simp only [breakPiece]
  (repeat' split) <;> simp

@[simp] theorem stopWork_parts (snap : Snapshot) (s : State) :
    (stopWork snap s).fetch.posted = s.fetch.posted ∧ (stopWork snap s).fetch.next = s.fetch.next ∧
      (stopWork snap s).fetch.inHand = s.fetch.inHand ∧ (stopWork snap s).fetch.deferred = s.fetch.deferred ∧
      (stopWork snap s).fetch.openPiece = s.fetch.openPiece ∧ (stopWork snap s).fetch.counter = s.fetch.counter ∧
      (stopWork snap s).fetch.finish = s.fetch.finish ∧ (stopWork snap s).run.state = s.run.state ∧
      (stopWork snap s).run.standby = s.run.standby ∧ (stopWork snap s).run.timer = s.run.timer ∧
      (stopWork snap s).plan.staged = s.plan.staged ∧ (stopWork snap s).plan.gapMet = s.plan.gapMet ∧
      (stopWork snap s).plan.lastRelease = s.plan.lastRelease ∧ (stopWork snap s).plan.counter = s.plan.counter ∧
      (stopWork snap s).plan.commitment = s.plan.commitment ∧ (stopWork snap s).track.loop = s.track.loop ∧
      (stopWork snap s).track.divsel = s.track.divsel ∧ (stopWork snap s).track.jogA = s.track.jogA ∧
      (stopWork snap s).track.jogB = s.track.jogB ∧ (stopWork snap s).report.write = s.report.write ∧
      (stopWork snap s).report.head = s.report.head ∧ (stopWork snap s).report.visible = s.report.visible ∧
      (stopWork snap s).report.tail = s.report.tail ∧ (stopWork snap s).report.outstanding = s.report.outstanding ∧
      (stopWork snap s).report.sinceHead = s.report.sinceHead ∧ (stopWork snap s).report.halted = s.report.halted ∧
      (stopWork snap s).report.headWaits = s.report.headWaits ∧ (stopWork snap s).history.dump = s.history.dump := by
  have h0 := reportAll_keeps (fun t : State => t.fetch.posted) (by intros; simp) snap.pos
  have h1 := reportAll_keeps (fun t : State => t.fetch.next) (by intros; simp) snap.pos
  have h2 := reportAll_keeps (fun t : State => t.fetch.inHand) (by intros; simp) snap.pos
  have h3 := reportAll_keeps (fun t : State => t.fetch.deferred) (by intros; simp) snap.pos
  have h4 := reportAll_keeps (fun t : State => t.fetch.openPiece) (by intros; simp) snap.pos
  have h5 := reportAll_keeps (fun t : State => t.fetch.counter) (by intros; simp) snap.pos
  have h6 := reportAll_keeps (fun t : State => t.fetch.finish) (by intros; simp) snap.pos
  have h7 := reportAll_keeps (fun t : State => t.run.state) (by intros; simp) snap.pos
  have h8 := reportAll_keeps (fun t : State => t.run.standby) (by intros; simp) snap.pos
  have h9 := reportAll_keeps (fun t : State => t.run.timer) (by intros; simp) snap.pos
  have h10 := reportAll_keeps (fun t : State => t.plan.staged) (by intros; simp) snap.pos
  have h11 := reportAll_keeps (fun t : State => t.plan.gapMet) (by intros; simp) snap.pos
  have h12 := reportAll_keeps (fun t : State => t.plan.lastRelease) (by intros; simp) snap.pos
  have h13 := reportAll_keeps (fun t : State => t.plan.counter) (by intros; simp) snap.pos
  have h14 := reportAll_keeps (fun t : State => t.plan.commitment) (by intros; simp) snap.pos
  have h15 := reportAll_keeps (fun t : State => t.track.loop) (by intros; simp) snap.pos
  have h16 := reportAll_keeps (fun t : State => t.track.divsel) (by intros; simp) snap.pos
  have h17 := reportAll_keeps (fun t : State => t.track.jogA) (by intros; simp) snap.pos
  have h18 := reportAll_keeps (fun t : State => t.track.jogB) (by intros; simp) snap.pos
  have h19 := reportAll_keeps (fun t : State => t.report.write) (by intros; simp) snap.pos
  have h20 := reportAll_keeps (fun t : State => t.report.head) (by intros; simp) snap.pos
  have h21 := reportAll_keeps (fun t : State => t.report.visible) (by intros; simp) snap.pos
  have h22 := reportAll_keeps (fun t : State => t.report.tail) (by intros; simp) snap.pos
  have h23 := reportAll_keeps (fun t : State => t.report.outstanding) (by intros; simp) snap.pos
  have h24 := reportAll_keeps (fun t : State => t.report.sinceHead) (by intros; simp) snap.pos
  have h25 := reportAll_keeps (fun t : State => t.report.halted) (by intros; simp) snap.pos
  have h26 := reportAll_keeps (fun t : State => t.report.headWaits) (by intros; simp) snap.pos
  have h27 := reportAll_keeps (fun t : State => t.history.dump) (by intros; simp) snap.pos
  simp only [stopWork]
  split <;> simp [h0, h1, h2, h3, h4, h5, h6, h7, h8, h9, h10, h11, h12, h13, h14, h15, h16, h17, h18, h19, h20, h21, h22, h23, h24, h25, h26, h27]

@[simp] theorem haltPath_parts (s : State) :
    (haltPath s).run.state = s.run.state ∧ (haltPath s).run.hold = s.run.hold ∧
      (haltPath s).run.standby = s.run.standby ∧ (haltPath s).expect.lines = s.expect.lines ∧
      (haltPath s).plan.lastStacker = s.plan.lastStacker ∧ (haltPath s).plan.counter = s.plan.counter ∧
      (haltPath s).plan.commitment = s.plan.commitment ∧ (haltPath s).image.port = s.image.port := by simp [haltPath]

@[simp] theorem stop_parts (cause : StopCause) (station : Option Station) (pos : Pos) (launch : Option Launch) (serial : Option Serial)
    (s : State) :
    (stop cause station pos launch serial s).fetch.posted = s.fetch.posted ∧
      (stop cause station pos launch serial s).fetch.next = s.fetch.next ∧
      (stop cause station pos launch serial s).fetch.inHand = s.fetch.inHand ∧
      (stop cause station pos launch serial s).fetch.deferred = s.fetch.deferred ∧
      (stop cause station pos launch serial s).fetch.openPiece = s.fetch.openPiece ∧
      (stop cause station pos launch serial s).fetch.counter = s.fetch.counter ∧
      (stop cause station pos launch serial s).fetch.finish = s.fetch.finish ∧
      (stop cause station pos launch serial s).run.standby = s.run.standby ∧
      (stop cause station pos launch serial s).expect.lines = s.expect.lines ∧
      (stop cause station pos launch serial s).plan.counter = s.plan.counter ∧
      (stop cause station pos launch serial s).plan.commitment = s.plan.commitment ∧
      (stop cause station pos launch serial s).track.loop = s.track.loop ∧
      (stop cause station pos launch serial s).track.divsel = s.track.divsel ∧
      (stop cause station pos launch serial s).track.jogA = s.track.jogA ∧
      (stop cause station pos launch serial s).track.jogB = s.track.jogB ∧
      (stop cause station pos launch serial s).image.port = s.image.port ∧
      (stop cause station pos launch serial s).report.write = s.report.write ∧
      (stop cause station pos launch serial s).report.head = s.report.head ∧
      (stop cause station pos launch serial s).report.visible = s.report.visible ∧
      (stop cause station pos launch serial s).report.tail = s.report.tail ∧
      (stop cause station pos launch serial s).report.outstanding = s.report.outstanding ∧
      (stop cause station pos launch serial s).report.sinceHead = s.report.sinceHead ∧
      (stop cause station pos launch serial s).report.halted = s.report.halted ∧
      (stop cause station pos launch serial s).report.headWaits = s.report.headWaits ∧
      (stop cause station pos launch serial s).history.dump = s.history.dump := by
  simp only [stop]
  (repeat' split) <;> simp

@[simp] theorem stopAtP_parts (cause : StopCause) (s : State) :
    (stopAtP cause s).fetch.posted = s.fetch.posted ∧ (stopAtP cause s).fetch.next = s.fetch.next ∧
      (stopAtP cause s).fetch.inHand = s.fetch.inHand ∧ (stopAtP cause s).fetch.deferred = s.fetch.deferred ∧
      (stopAtP cause s).fetch.openPiece = s.fetch.openPiece ∧ (stopAtP cause s).fetch.counter = s.fetch.counter ∧
      (stopAtP cause s).fetch.finish = s.fetch.finish ∧ (stopAtP cause s).run.standby = s.run.standby ∧
      (stopAtP cause s).expect.lines = s.expect.lines ∧ (stopAtP cause s).plan.counter = s.plan.counter ∧
      (stopAtP cause s).plan.commitment = s.plan.commitment ∧ (stopAtP cause s).track.loop = s.track.loop ∧
      (stopAtP cause s).track.divsel = s.track.divsel ∧ (stopAtP cause s).track.jogA = s.track.jogA ∧
      (stopAtP cause s).track.jogB = s.track.jogB ∧ (stopAtP cause s).image.port = s.image.port ∧
      (stopAtP cause s).report.write = s.report.write ∧ (stopAtP cause s).report.head = s.report.head ∧
      (stopAtP cause s).report.visible = s.report.visible ∧ (stopAtP cause s).report.tail = s.report.tail ∧
      (stopAtP cause s).report.outstanding = s.report.outstanding ∧
      (stopAtP cause s).report.sinceHead = s.report.sinceHead ∧ (stopAtP cause s).report.halted = s.report.halted ∧
      (stopAtP cause s).report.headWaits = s.report.headWaits ∧ (stopAtP cause s).history.dump = s.history.dump := by simp [stopAtP]

@[simp] theorem pathFault_parts (cause : StopCause) (station : Station) (pos : Pos) (launch : Launch) (s : State) :
    (pathFault cause station pos launch s).fetch.posted = s.fetch.posted ∧
      (pathFault cause station pos launch s).fetch.next = s.fetch.next ∧
      (pathFault cause station pos launch s).fetch.inHand = s.fetch.inHand ∧
      (pathFault cause station pos launch s).fetch.deferred = s.fetch.deferred ∧
      (pathFault cause station pos launch s).fetch.openPiece = s.fetch.openPiece ∧
      (pathFault cause station pos launch s).fetch.counter = s.fetch.counter ∧
      (pathFault cause station pos launch s).fetch.finish = s.fetch.finish ∧
      (pathFault cause station pos launch s).run.standby = s.run.standby ∧
      (pathFault cause station pos launch s).expect.lines = s.expect.lines ∧
      (pathFault cause station pos launch s).plan.counter = s.plan.counter ∧
      (pathFault cause station pos launch s).plan.commitment = s.plan.commitment ∧
      (pathFault cause station pos launch s).track.loop = s.track.loop ∧
      (pathFault cause station pos launch s).track.divsel = s.track.divsel ∧
      (pathFault cause station pos launch s).track.jogA = s.track.jogA ∧
      (pathFault cause station pos launch s).track.jogB = s.track.jogB ∧
      (pathFault cause station pos launch s).image.port = s.image.port ∧
      (pathFault cause station pos launch s).report.write = s.report.write ∧
      (pathFault cause station pos launch s).report.head = s.report.head ∧
      (pathFault cause station pos launch s).report.visible = s.report.visible ∧
      (pathFault cause station pos launch s).report.tail = s.report.tail ∧
      (pathFault cause station pos launch s).report.outstanding = s.report.outstanding ∧
      (pathFault cause station pos launch s).report.sinceHead = s.report.sinceHead ∧
      (pathFault cause station pos launch s).report.halted = s.report.halted ∧
      (pathFault cause station pos launch s).report.headWaits = s.report.headWaits ∧
      (pathFault cause station pos launch s).history.dump = s.history.dump := by simp [pathFault]

@[simp] theorem cancelPending_parts (p : PieceId) (s : State) :
    (cancelPending p s).pass.fwd = s.pass.fwd ∧ (cancelPending p s).pass.own = s.pass.own ∧
      (cancelPending p s).pass.wait = s.pass.wait ∧ (cancelPending p s).pass.granted = s.pass.granted ∧
      (cancelPending p s).pass.memError = s.pass.memError ∧ (cancelPending p s).fetch.posted = s.fetch.posted ∧
      (cancelPending p s).fetch.next = s.fetch.next ∧ (cancelPending p s).fetch.inHand = s.fetch.inHand ∧
      (cancelPending p s).fetch.deferred = s.fetch.deferred ∧
      (cancelPending p s).fetch.openPiece = s.fetch.openPiece ∧
      (cancelPending p s).fetch.counter = s.fetch.counter ∧ (cancelPending p s).fetch.finish = s.fetch.finish := by simp [cancelPending]

@[simp] theorem cancelInPath_parts (p : PieceId) (s : State) :
    (cancelInPath p s).pass.fwd = s.pass.fwd ∧ (cancelInPath p s).pass.own = s.pass.own ∧
      (cancelInPath p s).pass.wait = s.pass.wait ∧ (cancelInPath p s).pass.granted = s.pass.granted ∧
      (cancelInPath p s).pass.memError = s.pass.memError ∧ (cancelInPath p s).expect.lines = s.expect.lines ∧
      (cancelInPath p s).plan.staged = s.plan.staged ∧ (cancelInPath p s).plan.gapMet = s.plan.gapMet ∧
      (cancelInPath p s).plan.lastRelease = s.plan.lastRelease ∧ (cancelInPath p s).plan.counter = s.plan.counter ∧
      (cancelInPath p s).track.divsel = s.track.divsel ∧ (cancelInPath p s).track.jogA = s.track.jogA ∧
      (cancelInPath p s).track.jogB = s.track.jogB ∧ (cancelInPath p s).track.piece = s.track.piece ∧
      (cancelInPath p s).track.store = s.track.store ∧ (cancelInPath p s).image.port = s.image.port := by simp [cancelInPath]

@[simp] theorem cancelDelivered_parts (s : State) :
    (cancelDelivered s).pass.fwd = s.pass.fwd ∧ (cancelDelivered s).pass.own = s.pass.own ∧
      (cancelDelivered s).pass.wait = s.pass.wait ∧ (cancelDelivered s).pass.granted = s.pass.granted ∧
      (cancelDelivered s).pass.memError = s.pass.memError ∧ (cancelDelivered s).track.path = s.track.path ∧
      (cancelDelivered s).track.loop = s.track.loop ∧ (cancelDelivered s).track.divsel = s.track.divsel ∧
      (cancelDelivered s).track.jogA = s.track.jogA ∧ (cancelDelivered s).track.jogB = s.track.jogB := by simp [cancelDelivered]

@[simp] theorem cancelPiece_parts (p : PieceId) (s : State) :
    (cancelPiece p s).pass.fwd = s.pass.fwd ∧ (cancelPiece p s).pass.own = s.pass.own ∧
      (cancelPiece p s).pass.wait = s.pass.wait ∧ (cancelPiece p s).pass.granted = s.pass.granted ∧
      (cancelPiece p s).pass.memError = s.pass.memError ∧ (cancelPiece p s).fetch.posted = s.fetch.posted ∧
      (cancelPiece p s).fetch.next = s.fetch.next ∧ (cancelPiece p s).fetch.inHand = s.fetch.inHand ∧
      (cancelPiece p s).fetch.deferred = s.fetch.deferred ∧ (cancelPiece p s).fetch.openPiece = s.fetch.openPiece ∧
      (cancelPiece p s).fetch.counter = s.fetch.counter ∧ (cancelPiece p s).fetch.finish = s.fetch.finish ∧
      (cancelPiece p s).expect.lines = s.expect.lines ∧ (cancelPiece p s).plan.staged = s.plan.staged ∧
      (cancelPiece p s).plan.gapMet = s.plan.gapMet ∧ (cancelPiece p s).plan.lastRelease = s.plan.lastRelease ∧
      (cancelPiece p s).plan.counter = s.plan.counter ∧ (cancelPiece p s).track.divsel = s.track.divsel ∧
      (cancelPiece p s).track.jogA = s.track.jogA ∧ (cancelPiece p s).track.jogB = s.track.jogB ∧
      (cancelPiece p s).image.port = s.image.port ∧ (cancelPiece p s).report.write = s.report.write ∧
      (cancelPiece p s).report.head = s.report.head ∧ (cancelPiece p s).report.visible = s.report.visible ∧
      (cancelPiece p s).report.tail = s.report.tail ∧ (cancelPiece p s).report.outstanding = s.report.outstanding ∧
      (cancelPiece p s).report.sinceHead = s.report.sinceHead ∧ (cancelPiece p s).report.halted = s.report.halted ∧
      (cancelPiece p s).report.headWaits = s.report.headWaits := by
  simp only [cancelPiece]
  (repeat' split) <;> simp

@[simp] theorem impliedCancel_parts (s : State) :
    (impliedCancel s).pass.fwd = s.pass.fwd ∧ (impliedCancel s).pass.own = s.pass.own ∧
      (impliedCancel s).pass.wait = s.pass.wait ∧ (impliedCancel s).pass.granted = s.pass.granted ∧
      (impliedCancel s).pass.memError = s.pass.memError ∧ (impliedCancel s).fetch.posted = s.fetch.posted ∧
      (impliedCancel s).fetch.next = s.fetch.next ∧ (impliedCancel s).fetch.inHand = s.fetch.inHand ∧
      (impliedCancel s).fetch.deferred = s.fetch.deferred ∧ (impliedCancel s).fetch.counter = s.fetch.counter ∧
      (impliedCancel s).fetch.finish = s.fetch.finish ∧ (impliedCancel s).expect.lines = s.expect.lines ∧
      (impliedCancel s).plan.staged = s.plan.staged ∧ (impliedCancel s).plan.gapMet = s.plan.gapMet ∧
      (impliedCancel s).plan.lastRelease = s.plan.lastRelease ∧ (impliedCancel s).plan.counter = s.plan.counter ∧
      (impliedCancel s).track.divsel = s.track.divsel ∧ (impliedCancel s).track.jogA = s.track.jogA ∧
      (impliedCancel s).track.jogB = s.track.jogB ∧ (impliedCancel s).image.port = s.image.port ∧
      (impliedCancel s).report.write = s.report.write ∧ (impliedCancel s).report.head = s.report.head ∧
      (impliedCancel s).report.visible = s.report.visible ∧ (impliedCancel s).report.tail = s.report.tail ∧
      (impliedCancel s).report.outstanding = s.report.outstanding ∧
      (impliedCancel s).report.sinceHead = s.report.sinceHead ∧ (impliedCancel s).report.halted = s.report.halted ∧
      (impliedCancel s).report.headWaits = s.report.headWaits := by
  simp only [impliedCancel]
  (repeat' split) <;> simp

@[simp] theorem clearPath_parts (s : State) :
    (clearPath s).expect.lines = s.expect.lines ∧ (clearPath s).plan.staged = s.plan.staged ∧
      (clearPath s).plan.gapMet = s.plan.gapMet ∧ (clearPath s).plan.lastRelease = s.plan.lastRelease ∧
      (clearPath s).plan.counter = s.plan.counter ∧ (clearPath s).track.divsel = s.track.divsel ∧
      (clearPath s).track.jogA = s.track.jogA ∧ (clearPath s).track.jogB = s.track.jogB ∧
      (clearPath s).track.piece = s.track.piece ∧ (clearPath s).track.store = s.track.store ∧
      (clearPath s).image.port = s.image.port ∧ (clearPath s).recover.snapshot = s.recover.snapshot := by simp [clearPath]

@[simp] theorem leaveEstimate_parts (s : State) :
    (leaveEstimate s).time.pos = s.time.pos ∧ (leaveEstimate s).time.pulsed = s.time.pulsed ∧
      (leaveEstimate s).time.owed = s.time.owed := by simp [leaveEstimate]

@[simp] theorem armGap_parts (pos : Pos) (s : State) :
    (armGap pos s).expect.lines = s.expect.lines ∧ (armGap pos s).plan.staged = s.plan.staged ∧
      (armGap pos s).plan.lastRelease = s.plan.lastRelease ∧ (armGap pos s).plan.lastStacker = s.plan.lastStacker ∧
      (armGap pos s).plan.counter = s.plan.counter ∧ (armGap pos s).plan.commitment = s.plan.commitment := by
  simp only [armGap]
  (repeat' split) <;> simp

@[simp] theorem takeSerial_parts (e : PathEntry) (s : State) :
    (takeSerial e s).tally.delivered = s.tally.delivered ∧ (takeSerial e s).tally.lastSerial = s.tally.lastSerial ∧
      (takeSerial e s).tally.lastPiece = s.tally.lastPiece ∧ (takeSerial e s).tally.valid = s.tally.valid := by
  simp only [takeSerial]
  (repeat' split) <;> simp

@[simp] theorem armLeg_parts (e : PathEntry) (pos : Pos) (s : State) :
    (armLeg e pos s).expect.lines = s.expect.lines := by
  simp only [armLeg]
  (repeat' split) <;> simp

@[simp] theorem noteRelease_parts (e : PathEntry) (pos : Pos) (s : State) :
    (noteRelease e pos s).expect.lines = s.expect.lines ∧ (noteRelease e pos s).plan.staged = s.plan.staged ∧
      (noteRelease e pos s).plan.counter = s.plan.counter ∧
      (noteRelease e pos s).plan.commitment = s.plan.commitment := by simp [noteRelease]

@[simp] theorem release_parts (e : PathEntry) (s : State) :
    (release e s).run.state = s.run.state ∧ (release e s).run.standby = s.run.standby ∧
      (release e s).run.timer = s.run.timer ∧ (release e s).expect.lines = s.expect.lines ∧
      (release e s).plan.counter = s.plan.counter ∧ (release e s).plan.commitment = s.plan.commitment ∧
      (release e s).track.loop = s.track.loop ∧ (release e s).track.divsel = s.track.divsel ∧
      (release e s).track.jogA = s.track.jogA ∧ (release e s).track.jogB = s.track.jogB ∧
      (release e s).track.piece = s.track.piece ∧ (release e s).track.store = s.track.store ∧
      (release e s).report.write = s.report.write ∧ (release e s).report.head = s.report.head ∧
      (release e s).report.visible = s.report.visible ∧ (release e s).report.tail = s.report.tail ∧
      (release e s).report.outstanding = s.report.outstanding ∧
      (release e s).report.sinceHead = s.report.sinceHead ∧ (release e s).report.halted = s.report.halted ∧
      (release e s).report.headWaits = s.report.headWaits ∧ (release e s).history.dump = s.history.dump ∧
      (release e s).tally.delivered = s.tally.delivered ∧ (release e s).tally.lastSerial = s.tally.lastSerial ∧
      (release e s).tally.lastPiece = s.tally.lastPiece ∧ (release e s).tally.valid = s.tally.valid := by simp [release]

@[simp] theorem tryRelease_parts (s : State) :
    (tryRelease s).run.state = s.run.state ∧ (tryRelease s).run.standby = s.run.standby ∧
      (tryRelease s).run.timer = s.run.timer ∧ (tryRelease s).expect.lines = s.expect.lines ∧
      (tryRelease s).plan.counter = s.plan.counter ∧ (tryRelease s).plan.commitment = s.plan.commitment ∧
      (tryRelease s).track.loop = s.track.loop ∧ (tryRelease s).track.divsel = s.track.divsel ∧
      (tryRelease s).track.jogA = s.track.jogA ∧ (tryRelease s).track.jogB = s.track.jogB ∧
      (tryRelease s).track.piece = s.track.piece ∧ (tryRelease s).track.store = s.track.store ∧
      (tryRelease s).report.write = s.report.write ∧ (tryRelease s).report.head = s.report.head ∧
      (tryRelease s).report.visible = s.report.visible ∧ (tryRelease s).report.tail = s.report.tail ∧
      (tryRelease s).report.outstanding = s.report.outstanding ∧
      (tryRelease s).report.sinceHead = s.report.sinceHead ∧ (tryRelease s).report.halted = s.report.halted ∧
      (tryRelease s).report.headWaits = s.report.headWaits ∧ (tryRelease s).history.dump = s.history.dump ∧
      (tryRelease s).tally.delivered = s.tally.delivered ∧ (tryRelease s).tally.lastSerial = s.tally.lastSerial ∧
      (tryRelease s).tally.lastPiece = s.tally.lastPiece ∧ (tryRelease s).tally.valid = s.tally.valid := by
  simp only [tryRelease]
  (repeat' split) <;> simp

@[simp] theorem commitLoop_parts (l : Launch) (h : LogicalSheet) (s : State) :
    (commitLoop l h s).plan.staged = s.plan.staged ∧ (commitLoop l h s).plan.gapMet = s.plan.gapMet ∧
      (commitLoop l h s).plan.lastRelease = s.plan.lastRelease ∧
      (commitLoop l h s).plan.lastStacker = s.plan.lastStacker ∧ (commitLoop l h s).plan.counter = s.plan.counter ∧
      (commitLoop l h s).track.path = s.track.path ∧ (commitLoop l h s).track.divsel = s.track.divsel ∧
      (commitLoop l h s).track.jogA = s.track.jogA ∧ (commitLoop l h s).track.jogB = s.track.jogB ∧
      (commitLoop l h s).track.piece = s.track.piece ∧ (commitLoop l h s).track.store = s.track.store := by
  simp only [commitLoop]
  (repeat' split) <;> simp

@[simp] theorem pick_parts (h : LogicalSheet) (s : State) :
    (pick h s).fetch.posted = s.fetch.posted ∧ (pick h s).fetch.next = s.fetch.next ∧
      (pick h s).fetch.inHand = s.fetch.inHand ∧ (pick h s).fetch.deferred = s.fetch.deferred ∧
      (pick h s).fetch.openPiece = s.fetch.openPiece ∧ (pick h s).fetch.counter = s.fetch.counter ∧
      (pick h s).fetch.finish = s.fetch.finish ∧ (pick h s).expect.lines = s.expect.lines ∧
      (pick h s).plan.gapMet = s.plan.gapMet ∧ (pick h s).plan.lastRelease = s.plan.lastRelease ∧
      (pick h s).plan.lastStacker = s.plan.lastStacker ∧ (pick h s).track.divsel = s.track.divsel ∧
      (pick h s).track.jogA = s.track.jogA ∧ (pick h s).track.jogB = s.track.jogB ∧
      (pick h s).track.piece = s.track.piece ∧ (pick h s).track.store = s.track.store ∧
      (pick h s).history.frozen = s.history.frozen ∧ (pick h s).history.dump = s.history.dump := by simp [pick]

@[simp] theorem refeed_parts (e : PathEntry) (s : State) :
    (refeed e s).expect.lines = s.expect.lines ∧ (refeed e s).plan.gapMet = s.plan.gapMet ∧
      (refeed e s).plan.lastRelease = s.plan.lastRelease ∧ (refeed e s).plan.lastStacker = s.plan.lastStacker ∧
      (refeed e s).plan.counter = s.plan.counter ∧ (refeed e s).plan.commitment = s.plan.commitment ∧
      (refeed e s).track.loop = s.track.loop ∧ (refeed e s).track.divsel = s.track.divsel ∧
      (refeed e s).track.jogA = s.track.jogA ∧ (refeed e s).track.jogB = s.track.jogB ∧
      (refeed e s).track.piece = s.track.piece ∧ (refeed e s).track.store = s.track.store ∧
      (refeed e s).history.frozen = s.history.frozen ∧ (refeed e s).history.dump = s.history.dump := by simp [refeed]

@[simp] theorem tryStage_parts (s : State) :
    (tryStage s).fetch.posted = s.fetch.posted ∧ (tryStage s).fetch.next = s.fetch.next ∧
      (tryStage s).fetch.inHand = s.fetch.inHand ∧ (tryStage s).fetch.deferred = s.fetch.deferred ∧
      (tryStage s).fetch.openPiece = s.fetch.openPiece ∧ (tryStage s).fetch.counter = s.fetch.counter ∧
      (tryStage s).fetch.finish = s.fetch.finish ∧ (tryStage s).expect.lines = s.expect.lines ∧
      (tryStage s).plan.gapMet = s.plan.gapMet ∧ (tryStage s).plan.lastRelease = s.plan.lastRelease ∧
      (tryStage s).plan.lastStacker = s.plan.lastStacker ∧ (tryStage s).track.divsel = s.track.divsel ∧
      (tryStage s).track.jogA = s.track.jogA ∧ (tryStage s).track.jogB = s.track.jogB ∧
      (tryStage s).track.piece = s.track.piece ∧ (tryStage s).track.store = s.track.store ∧
      (tryStage s).history.frozen = s.history.frozen ∧ (tryStage s).history.dump = s.history.dump := by
  simp only [tryStage]
  (repeat' split) <;> simp

@[simp] theorem drainStep_parts (s : State) :
    (drainStep s).fetch.posted = s.fetch.posted ∧ (drainStep s).fetch.next = s.fetch.next ∧
      (drainStep s).fetch.inHand = s.fetch.inHand ∧ (drainStep s).fetch.deferred = s.fetch.deferred ∧
      (drainStep s).fetch.openPiece = s.fetch.openPiece ∧ (drainStep s).fetch.counter = s.fetch.counter ∧
      (drainStep s).fetch.finish = s.fetch.finish ∧ (drainStep s).run.standby = s.run.standby ∧
      (drainStep s).expect.lines = s.expect.lines ∧ (drainStep s).plan.counter = s.plan.counter ∧
      (drainStep s).plan.commitment = s.plan.commitment ∧ (drainStep s).track.loop = s.track.loop ∧
      (drainStep s).track.divsel = s.track.divsel ∧ (drainStep s).track.jogA = s.track.jogA ∧
      (drainStep s).track.jogB = s.track.jogB ∧ (drainStep s).image.port = s.image.port ∧
      (drainStep s).report.write = s.report.write ∧ (drainStep s).report.head = s.report.head ∧
      (drainStep s).report.visible = s.report.visible ∧ (drainStep s).report.tail = s.report.tail ∧
      (drainStep s).report.outstanding = s.report.outstanding ∧
      (drainStep s).report.sinceHead = s.report.sinceHead ∧ (drainStep s).report.halted = s.report.halted ∧
      (drainStep s).report.headWaits = s.report.headWaits ∧ (drainStep s).history.dump = s.history.dump ∧
      (drainStep s).track.store = s.track.store ∧ (drainStep s).track.piece = s.track.piece := by
  simp only [drainStep]
  split
  · rename_i h
    simp only [stopAtP, stop]
    (repeat' split) <;> simp [stopWork, h]
  · simp

@[simp] theorem atSpeed_parts (s : State) :
    (atSpeed s).run.hold = s.run.hold ∧ (atSpeed s).run.standby = s.run.standby ∧
      (atSpeed s).report.write = s.report.write ∧ (atSpeed s).report.head = s.report.head ∧
      (atSpeed s).report.visible = s.report.visible ∧ (atSpeed s).report.tail = s.report.tail ∧
      (atSpeed s).report.outstanding = s.report.outstanding ∧ (atSpeed s).report.sinceHead = s.report.sinceHead ∧
      (atSpeed s).report.halted = s.report.halted ∧ (atSpeed s).report.headWaits = s.report.headWaits := by simp [atSpeed]

@[simp] theorem enterStarting_parts (s : State) :
    (enterStarting s).run.hold = s.run.hold ∧ (enterStarting s).run.standby = s.run.standby ∧
      (enterStarting s).report.write = s.report.write ∧ (enterStarting s).report.head = s.report.head ∧
      (enterStarting s).report.visible = s.report.visible ∧ (enterStarting s).report.tail = s.report.tail ∧
      (enterStarting s).report.outstanding = s.report.outstanding ∧
      (enterStarting s).report.sinceHead = s.report.sinceHead ∧ (enterStarting s).report.halted = s.report.halted ∧
      (enterStarting s).report.headWaits = s.report.headWaits := by
  simp only [enterStarting]
  (repeat' split) <;> simp

@[simp] theorem startStep_parts (s : State) :
    (startStep s).run.hold = s.run.hold ∧ (startStep s).run.standby = s.run.standby ∧
      (startStep s).report.write = s.report.write ∧ (startStep s).report.head = s.report.head ∧
      (startStep s).report.visible = s.report.visible ∧ (startStep s).report.tail = s.report.tail ∧
      (startStep s).report.outstanding = s.report.outstanding ∧
      (startStep s).report.sinceHead = s.report.sinceHead ∧ (startStep s).report.halted = s.report.halted ∧
      (startStep s).report.headWaits = s.report.headWaits := by
  simp only [startStep]
  (repeat' split) <;> simp

@[simp] theorem fallIdle_parts (s : State) :
    (fallIdle s).run.hold = s.run.hold ∧ (fallIdle s).run.standby = s.run.standby ∧
      (fallIdle s).run.timer = s.run.timer ∧ (fallIdle s).report.write = s.report.write ∧
      (fallIdle s).report.head = s.report.head ∧ (fallIdle s).report.visible = s.report.visible ∧
      (fallIdle s).report.tail = s.report.tail ∧ (fallIdle s).report.outstanding = s.report.outstanding ∧
      (fallIdle s).report.sinceHead = s.report.sinceHead ∧ (fallIdle s).report.halted = s.report.halted ∧
      (fallIdle s).report.headWaits = s.report.headWaits := by simp [fallIdle]

@[simp] theorem idleStep_parts (s : State) :
    (idleStep s).run.hold = s.run.hold ∧ (idleStep s).run.standby = s.run.standby ∧
      (idleStep s).run.timer = s.run.timer ∧ (idleStep s).expect.lines = s.expect.lines ∧
      (idleStep s).report.write = s.report.write ∧ (idleStep s).report.head = s.report.head ∧
      (idleStep s).report.visible = s.report.visible ∧ (idleStep s).report.tail = s.report.tail ∧
      (idleStep s).report.outstanding = s.report.outstanding ∧ (idleStep s).report.sinceHead = s.report.sinceHead ∧
      (idleStep s).report.halted = s.report.halted ∧ (idleStep s).report.headWaits = s.report.headWaits := by
  simp only [idleStep]
  (repeat' split) <;> simp

@[simp] theorem silenceStep_parts (s : State) :
    (silenceStep s).time.pos = s.time.pos ∧ (silenceStep s).time.acc = s.time.acc ∧
      (silenceStep s).time.estimate = s.time.estimate ∧ (silenceStep s).time.estTicks = s.time.estTicks ∧
      (silenceStep s).time.pulsed = s.time.pulsed ∧ (silenceStep s).time.restored = s.time.restored ∧
      (silenceStep s).time.owed = s.time.owed := by
  simp only [silenceStep]
  (repeat' split) <;> simp

@[simp] theorem runOwed_parts (n : Nat) (s : State) :
    (runOwed n s).time.acc = s.time.acc ∧ (runOwed n s).time.estimate = s.time.estimate ∧
      (runOwed n s).time.silence = s.time.silence ∧ (runOwed n s).time.estTicks = s.time.estTicks ∧
      (runOwed n s).time.pulsed = s.time.pulsed ∧ (runOwed n s).time.restored = s.time.restored := by
  induction n generalizing s with
  | zero => simp [runOwed]
  | succ n ih => (simp only [runOwed]; split) <;> simp [*]

@[simp] theorem moveP_parts (s : State) :
    (moveP s).time.acc = s.time.acc ∧ (moveP s).time.estimate = s.time.estimate ∧
      (moveP s).time.silence = s.time.silence ∧ (moveP s).time.estTicks = s.time.estTicks ∧
      (moveP s).time.pulsed = s.time.pulsed ∧ (moveP s).time.restored = s.time.restored := by simp [moveP]

@[simp] theorem travel_parts (k : Nat) (s : State) :
    (travel k s).time.acc = s.time.acc ∧ (travel k s).time.estimate = s.time.estimate ∧
      (travel k s).time.silence = s.time.silence ∧ (travel k s).time.estTicks = s.time.estTicks ∧
      (travel k s).time.pulsed = s.time.pulsed ∧ (travel k s).time.restored = s.time.restored := by simp [travel]

@[simp] theorem decideAll_parts (s : State) :
    (decideAll s).fetch.posted = s.fetch.posted ∧ (decideAll s).fetch.next = s.fetch.next ∧
      (decideAll s).fetch.inHand = s.fetch.inHand ∧ (decideAll s).fetch.deferred = s.fetch.deferred ∧
      (decideAll s).fetch.openPiece = s.fetch.openPiece ∧ (decideAll s).fetch.counter = s.fetch.counter ∧
      (decideAll s).fetch.finish = s.fetch.finish ∧ (decideAll s).run.standby = s.run.standby ∧
      (decideAll s).expect.lines = s.expect.lines ∧ (decideAll s).track.divsel = s.track.divsel ∧
      (decideAll s).track.jogA = s.track.jogA ∧ (decideAll s).track.jogB = s.track.jogB ∧
      (decideAll s).image.port = s.image.port ∧ (decideAll s).report.write = s.report.write ∧
      (decideAll s).report.head = s.report.head ∧ (decideAll s).report.visible = s.report.visible ∧
      (decideAll s).report.tail = s.report.tail ∧ (decideAll s).report.outstanding = s.report.outstanding ∧
      (decideAll s).report.sinceHead = s.report.sinceHead ∧ (decideAll s).report.halted = s.report.halted ∧
      (decideAll s).report.headWaits = s.report.headWaits ∧ (decideAll s).history.dump = s.history.dump ∧
      (decideAll s).tally.delivered = s.tally.delivered ∧ (decideAll s).tally.lastSerial = s.tally.lastSerial ∧
      (decideAll s).tally.lastPiece = s.tally.lastPiece ∧ (decideAll s).tally.valid = s.tally.valid ∧
      (decideAll s).track.store = s.track.store ∧ (decideAll s).track.piece = s.track.piece := by simp [decideAll]

@[simp] theorem settle_parts (s : State) :
    (settle s).fetch.posted = s.fetch.posted ∧ (settle s).fetch.next = s.fetch.next ∧
      (settle s).fetch.inHand = s.fetch.inHand ∧ (settle s).fetch.deferred = s.fetch.deferred ∧
      (settle s).fetch.openPiece = s.fetch.openPiece ∧ (settle s).fetch.counter = s.fetch.counter ∧
      (settle s).fetch.finish = s.fetch.finish ∧ (settle s).run.standby = s.run.standby ∧
      (settle s).time.acc = s.time.acc ∧ (settle s).time.estimate = s.time.estimate ∧
      (settle s).time.estTicks = s.time.estTicks ∧ (settle s).time.pulsed = s.time.pulsed ∧
      (settle s).time.restored = s.time.restored ∧ (settle s).expect.lines = s.expect.lines ∧
      (settle s).track.divsel = s.track.divsel ∧ (settle s).track.jogA = s.track.jogA ∧
      (settle s).track.jogB = s.track.jogB ∧ (settle s).image.port = s.image.port ∧
      (settle s).report.write = s.report.write ∧ (settle s).report.head = s.report.head ∧
      (settle s).report.visible = s.report.visible ∧ (settle s).report.tail = s.report.tail ∧
      (settle s).report.outstanding = s.report.outstanding ∧ (settle s).report.sinceHead = s.report.sinceHead ∧
      (settle s).report.halted = s.report.halted ∧ (settle s).report.headWaits = s.report.headWaits ∧
      (settle s).history.dump = s.history.dump ∧ (settle s).tally.delivered = s.tally.delivered ∧
      (settle s).tally.lastSerial = s.tally.lastSerial ∧ (settle s).tally.lastPiece = s.tally.lastPiece ∧
      (settle s).tally.valid = s.tally.valid ∧ (settle s).track.store = s.track.store ∧
      (settle s).track.piece = s.track.piece := by simp [settle]

@[simp] theorem expireItem_parts (it : Item) (s : State) :
    (expireItem it s).fetch.posted = s.fetch.posted ∧ (expireItem it s).fetch.next = s.fetch.next ∧
      (expireItem it s).fetch.inHand = s.fetch.inHand ∧ (expireItem it s).fetch.deferred = s.fetch.deferred ∧
      (expireItem it s).fetch.openPiece = s.fetch.openPiece ∧ (expireItem it s).fetch.counter = s.fetch.counter ∧
      (expireItem it s).fetch.finish = s.fetch.finish ∧ (expireItem it s).run.standby = s.run.standby ∧
      (expireItem it s).expect.lines = s.expect.lines ∧ (expireItem it s).plan.counter = s.plan.counter ∧
      (expireItem it s).plan.commitment = s.plan.commitment ∧ (expireItem it s).track.loop = s.track.loop ∧
      (expireItem it s).track.divsel = s.track.divsel ∧ (expireItem it s).track.jogA = s.track.jogA ∧
      (expireItem it s).track.jogB = s.track.jogB ∧ (expireItem it s).image.port = s.image.port ∧
      (expireItem it s).report.write = s.report.write ∧ (expireItem it s).report.head = s.report.head ∧
      (expireItem it s).report.visible = s.report.visible ∧ (expireItem it s).report.tail = s.report.tail ∧
      (expireItem it s).report.outstanding = s.report.outstanding ∧
      (expireItem it s).report.sinceHead = s.report.sinceHead ∧ (expireItem it s).report.halted = s.report.halted ∧
      (expireItem it s).report.headWaits = s.report.headWaits ∧ (expireItem it s).history.dump = s.history.dump := by
  simp only [expireItem]
  (repeat' split) <;> simp

@[simp] theorem armLegLE_parts (l : Launch) (st : Station) (pos : Pos) (s : State) :
    (armLegLE l st pos s).fetch.posted = s.fetch.posted ∧ (armLegLE l st pos s).fetch.next = s.fetch.next ∧
      (armLegLE l st pos s).fetch.inHand = s.fetch.inHand ∧
      (armLegLE l st pos s).fetch.deferred = s.fetch.deferred ∧
      (armLegLE l st pos s).fetch.openPiece = s.fetch.openPiece ∧
      (armLegLE l st pos s).fetch.counter = s.fetch.counter ∧ (armLegLE l st pos s).fetch.finish = s.fetch.finish ∧
      (armLegLE l st pos s).run.standby = s.run.standby ∧ (armLegLE l st pos s).expect.lines = s.expect.lines ∧
      (armLegLE l st pos s).plan.counter = s.plan.counter ∧
      (armLegLE l st pos s).plan.commitment = s.plan.commitment ∧ (armLegLE l st pos s).track.loop = s.track.loop ∧
      (armLegLE l st pos s).track.divsel = s.track.divsel ∧ (armLegLE l st pos s).track.jogA = s.track.jogA ∧
      (armLegLE l st pos s).track.jogB = s.track.jogB ∧ (armLegLE l st pos s).image.port = s.image.port ∧
      (armLegLE l st pos s).report.write = s.report.write ∧ (armLegLE l st pos s).report.head = s.report.head ∧
      (armLegLE l st pos s).report.visible = s.report.visible ∧ (armLegLE l st pos s).report.tail = s.report.tail ∧
      (armLegLE l st pos s).report.outstanding = s.report.outstanding ∧
      (armLegLE l st pos s).report.sinceHead = s.report.sinceHead ∧
      (armLegLE l st pos s).report.halted = s.report.halted ∧
      (armLegLE l st pos s).report.headWaits = s.report.headWaits ∧
      (armLegLE l st pos s).history.dump = s.history.dump := by
  simp only [armLegLE]
  (repeat' split) <;> simp

@[simp] theorem armTerminal_parts (e : PathEntry) (r : Route) (s : State) :
    (armTerminal e r s).fetch.posted = s.fetch.posted ∧ (armTerminal e r s).fetch.next = s.fetch.next ∧
      (armTerminal e r s).fetch.inHand = s.fetch.inHand ∧ (armTerminal e r s).fetch.deferred = s.fetch.deferred ∧
      (armTerminal e r s).fetch.openPiece = s.fetch.openPiece ∧
      (armTerminal e r s).fetch.counter = s.fetch.counter ∧ (armTerminal e r s).fetch.finish = s.fetch.finish ∧
      (armTerminal e r s).run.standby = s.run.standby ∧ (armTerminal e r s).expect.lines = s.expect.lines ∧
      (armTerminal e r s).plan.counter = s.plan.counter ∧ (armTerminal e r s).plan.commitment = s.plan.commitment ∧
      (armTerminal e r s).track.loop = s.track.loop ∧ (armTerminal e r s).track.divsel = s.track.divsel ∧
      (armTerminal e r s).track.jogA = s.track.jogA ∧ (armTerminal e r s).track.jogB = s.track.jogB ∧
      (armTerminal e r s).image.port = s.image.port ∧ (armTerminal e r s).report.write = s.report.write ∧
      (armTerminal e r s).report.head = s.report.head ∧ (armTerminal e r s).report.visible = s.report.visible ∧
      (armTerminal e r s).report.tail = s.report.tail ∧
      (armTerminal e r s).report.outstanding = s.report.outstanding ∧
      (armTerminal e r s).report.sinceHead = s.report.sinceHead ∧
      (armTerminal e r s).report.halted = s.report.halted ∧
      (armTerminal e r s).report.headWaits = s.report.headWaits ∧ (armTerminal e r s).history.dump = s.history.dump := by simp [armTerminal]

@[simp] theorem trackLE_parts (e : PathEntry) (st : Station) (q : Pos) (s : State) :
    (trackLE e st q s).fetch.posted = s.fetch.posted ∧ (trackLE e st q s).fetch.next = s.fetch.next ∧
      (trackLE e st q s).fetch.inHand = s.fetch.inHand ∧ (trackLE e st q s).fetch.deferred = s.fetch.deferred ∧
      (trackLE e st q s).fetch.openPiece = s.fetch.openPiece ∧ (trackLE e st q s).fetch.counter = s.fetch.counter ∧
      (trackLE e st q s).fetch.finish = s.fetch.finish ∧ (trackLE e st q s).run.standby = s.run.standby ∧
      (trackLE e st q s).expect.lines = s.expect.lines ∧ (trackLE e st q s).plan.counter = s.plan.counter ∧
      (trackLE e st q s).plan.commitment = s.plan.commitment ∧ (trackLE e st q s).track.loop = s.track.loop ∧
      (trackLE e st q s).track.divsel = s.track.divsel ∧ (trackLE e st q s).track.jogA = s.track.jogA ∧
      (trackLE e st q s).track.jogB = s.track.jogB ∧ (trackLE e st q s).image.port = s.image.port ∧
      (trackLE e st q s).report.write = s.report.write ∧ (trackLE e st q s).report.head = s.report.head ∧
      (trackLE e st q s).report.visible = s.report.visible ∧ (trackLE e st q s).report.tail = s.report.tail ∧
      (trackLE e st q s).report.outstanding = s.report.outstanding ∧
      (trackLE e st q s).report.sinceHead = s.report.sinceHead ∧
      (trackLE e st q s).report.halted = s.report.halted ∧
      (trackLE e st q s).report.headWaits = s.report.headWaits ∧ (trackLE e st q s).history.dump = s.history.dump := by
  simp only [trackLE]
  (repeat' split) <;> simp

@[simp] theorem metLE_parts (e : PathEntry) (st : Station) (q : Pos) (s : State) :
    (metLE e st q s).fetch.posted = s.fetch.posted ∧ (metLE e st q s).fetch.next = s.fetch.next ∧
      (metLE e st q s).fetch.inHand = s.fetch.inHand ∧ (metLE e st q s).fetch.deferred = s.fetch.deferred ∧
      (metLE e st q s).fetch.openPiece = s.fetch.openPiece ∧ (metLE e st q s).fetch.counter = s.fetch.counter ∧
      (metLE e st q s).fetch.finish = s.fetch.finish ∧ (metLE e st q s).run.standby = s.run.standby ∧
      (metLE e st q s).expect.lines = s.expect.lines ∧ (metLE e st q s).plan.counter = s.plan.counter ∧
      (metLE e st q s).plan.commitment = s.plan.commitment ∧ (metLE e st q s).track.loop = s.track.loop ∧
      (metLE e st q s).track.divsel = s.track.divsel ∧ (metLE e st q s).track.jogA = s.track.jogA ∧
      (metLE e st q s).track.jogB = s.track.jogB ∧ (metLE e st q s).image.port = s.image.port ∧
      (metLE e st q s).report.write = s.report.write ∧ (metLE e st q s).report.head = s.report.head ∧
      (metLE e st q s).report.visible = s.report.visible ∧ (metLE e st q s).report.tail = s.report.tail ∧
      (metLE e st q s).report.outstanding = s.report.outstanding ∧
      (metLE e st q s).report.sinceHead = s.report.sinceHead ∧ (metLE e st q s).report.halted = s.report.halted ∧
      (metLE e st q s).report.headWaits = s.report.headWaits ∧ (metLE e st q s).history.dump = s.history.dump := by simp [metLE]

@[simp] theorem deliver_parts (e : PathEntry) (x : LogicalSheet) (k : Stacker) (q : Pos) (s : State) :
    (deliver e x k q s).pass.fwd = s.pass.fwd ∧ (deliver e x k q s).pass.own = s.pass.own ∧
      (deliver e x k q s).pass.wait = s.pass.wait ∧ (deliver e x k q s).pass.granted = s.pass.granted ∧
      (deliver e x k q s).pass.memError = s.pass.memError ∧ (deliver e x k q s).run.state = s.run.state ∧
      (deliver e x k q s).run.standby = s.run.standby ∧ (deliver e x k q s).run.timer = s.run.timer ∧
      (deliver e x k q s).expect.lines = s.expect.lines ∧ (deliver e x k q s).plan.staged = s.plan.staged ∧
      (deliver e x k q s).plan.gapMet = s.plan.gapMet ∧ (deliver e x k q s).plan.lastRelease = s.plan.lastRelease ∧
      (deliver e x k q s).plan.counter = s.plan.counter ∧ (deliver e x k q s).track.divsel = s.track.divsel ∧
      (deliver e x k q s).track.jogA = s.track.jogA ∧ (deliver e x k q s).track.jogB = s.track.jogB ∧
      (deliver e x k q s).image.port = s.image.port ∧ (deliver e x k q s).report.write = s.report.write ∧
      (deliver e x k q s).report.head = s.report.head ∧ (deliver e x k q s).report.visible = s.report.visible ∧
      (deliver e x k q s).report.tail = s.report.tail ∧
      (deliver e x k q s).report.outstanding = s.report.outstanding ∧
      (deliver e x k q s).report.sinceHead = s.report.sinceHead ∧
      (deliver e x k q s).report.halted = s.report.halted ∧
      (deliver e x k q s).report.headWaits = s.report.headWaits ∧
      (deliver e x k q s).history.dump = s.history.dump ∧
      (deliver e x k q s).tally.nextSerial = s.tally.nextSerial ∧ (deliver e x k q s).tally.valid = s.tally.valid := by simp [deliver]

@[simp] theorem spoiledExit_parts (e : PathEntry) (st : Station) (q : Pos) (s : State) :
    (spoiledExit e st q s).run.state = s.run.state ∧ (spoiledExit e st q s).run.standby = s.run.standby ∧
      (spoiledExit e st q s).run.timer = s.run.timer ∧ (spoiledExit e st q s).expect.lines = s.expect.lines ∧
      (spoiledExit e st q s).plan.staged = s.plan.staged ∧ (spoiledExit e st q s).plan.gapMet = s.plan.gapMet ∧
      (spoiledExit e st q s).plan.lastRelease = s.plan.lastRelease ∧
      (spoiledExit e st q s).plan.counter = s.plan.counter ∧ (spoiledExit e st q s).track.divsel = s.track.divsel ∧
      (spoiledExit e st q s).track.jogA = s.track.jogA ∧ (spoiledExit e st q s).track.jogB = s.track.jogB ∧
      (spoiledExit e st q s).track.piece = s.track.piece ∧ (spoiledExit e st q s).track.store = s.track.store ∧
      (spoiledExit e st q s).image.port = s.image.port ∧ (spoiledExit e st q s).report.write = s.report.write ∧
      (spoiledExit e st q s).report.head = s.report.head ∧
      (spoiledExit e st q s).report.visible = s.report.visible ∧
      (spoiledExit e st q s).report.tail = s.report.tail ∧
      (spoiledExit e st q s).report.outstanding = s.report.outstanding ∧
      (spoiledExit e st q s).report.sinceHead = s.report.sinceHead ∧
      (spoiledExit e st q s).report.halted = s.report.halted ∧
      (spoiledExit e st q s).report.headWaits = s.report.headWaits ∧
      (spoiledExit e st q s).history.dump = s.history.dump := by simp [spoiledExit]

@[simp] theorem exitStacker_parts (e : PathEntry) (k : Stacker) (q : Pos) (s : State) :
    (exitStacker e k q s).pass.fwd = s.pass.fwd ∧ (exitStacker e k q s).pass.own = s.pass.own ∧
      (exitStacker e k q s).pass.wait = s.pass.wait ∧ (exitStacker e k q s).pass.granted = s.pass.granted ∧
      (exitStacker e k q s).pass.memError = s.pass.memError ∧ (exitStacker e k q s).run.state = s.run.state ∧
      (exitStacker e k q s).run.standby = s.run.standby ∧ (exitStacker e k q s).run.timer = s.run.timer ∧
      (exitStacker e k q s).expect.lines = s.expect.lines ∧ (exitStacker e k q s).plan.staged = s.plan.staged ∧
      (exitStacker e k q s).plan.gapMet = s.plan.gapMet ∧
      (exitStacker e k q s).plan.lastRelease = s.plan.lastRelease ∧
      (exitStacker e k q s).plan.counter = s.plan.counter ∧ (exitStacker e k q s).track.divsel = s.track.divsel ∧
      (exitStacker e k q s).track.jogA = s.track.jogA ∧ (exitStacker e k q s).track.jogB = s.track.jogB ∧
      (exitStacker e k q s).image.port = s.image.port ∧ (exitStacker e k q s).report.write = s.report.write ∧
      (exitStacker e k q s).report.head = s.report.head ∧ (exitStacker e k q s).report.visible = s.report.visible ∧
      (exitStacker e k q s).report.tail = s.report.tail ∧
      (exitStacker e k q s).report.outstanding = s.report.outstanding ∧
      (exitStacker e k q s).report.sinceHead = s.report.sinceHead ∧
      (exitStacker e k q s).report.halted = s.report.halted ∧
      (exitStacker e k q s).report.headWaits = s.report.headWaits ∧
      (exitStacker e k q s).history.dump = s.history.dump ∧
      (exitStacker e k q s).tally.nextSerial = s.tally.nextSerial ∧
      (exitStacker e k q s).tally.valid = s.tally.valid := by
  simp only [exitStacker]
  (repeat' split) <;> simp

@[simp] theorem parkEntry_parts (l : Launch) (s : State) :
    (parkEntry l s).track.loop = s.track.loop ∧ (parkEntry l s).track.divsel = s.track.divsel ∧
      (parkEntry l s).track.jogA = s.track.jogA ∧ (parkEntry l s).track.jogB = s.track.jogB ∧
      (parkEntry l s).track.piece = s.track.piece ∧ (parkEntry l s).track.store = s.track.store := by simp [parkEntry]

@[simp] theorem armPark_parts (l : Launch) (pos : Pos) (s : State) :
    (armPark l pos s).expect.lines = s.expect.lines ∧ (armPark l pos s).track.loop = s.track.loop ∧
      (armPark l pos s).track.divsel = s.track.divsel ∧ (armPark l pos s).track.jogA = s.track.jogA ∧
      (armPark l pos s).track.jogB = s.track.jogB ∧ (armPark l pos s).track.piece = s.track.piece ∧
      (armPark l pos s).track.store = s.track.store := by
  simp only [armPark]
  (repeat' split) <;> simp

@[simp] theorem trackTE_parts (e : PathEntry) (st : Station) (q : Pos) (s : State) :
    (trackTE e st q s).pass.fwd = s.pass.fwd ∧ (trackTE e st q s).pass.own = s.pass.own ∧
      (trackTE e st q s).pass.wait = s.pass.wait ∧ (trackTE e st q s).pass.granted = s.pass.granted ∧
      (trackTE e st q s).pass.memError = s.pass.memError ∧ (trackTE e st q s).run.state = s.run.state ∧
      (trackTE e st q s).run.standby = s.run.standby ∧ (trackTE e st q s).run.timer = s.run.timer ∧
      (trackTE e st q s).expect.lines = s.expect.lines ∧ (trackTE e st q s).plan.staged = s.plan.staged ∧
      (trackTE e st q s).plan.gapMet = s.plan.gapMet ∧ (trackTE e st q s).plan.lastRelease = s.plan.lastRelease ∧
      (trackTE e st q s).plan.counter = s.plan.counter ∧ (trackTE e st q s).track.divsel = s.track.divsel ∧
      (trackTE e st q s).track.jogA = s.track.jogA ∧ (trackTE e st q s).track.jogB = s.track.jogB ∧
      (trackTE e st q s).image.port = s.image.port ∧ (trackTE e st q s).report.write = s.report.write ∧
      (trackTE e st q s).report.head = s.report.head ∧ (trackTE e st q s).report.visible = s.report.visible ∧
      (trackTE e st q s).report.tail = s.report.tail ∧
      (trackTE e st q s).report.outstanding = s.report.outstanding ∧
      (trackTE e st q s).report.sinceHead = s.report.sinceHead ∧
      (trackTE e st q s).report.halted = s.report.halted ∧
      (trackTE e st q s).report.headWaits = s.report.headWaits ∧ (trackTE e st q s).history.dump = s.history.dump ∧
      (trackTE e st q s).tally.nextSerial = s.tally.nextSerial ∧ (trackTE e st q s).tally.valid = s.tally.valid := by
  simp only [trackTE]
  (repeat' split) <;> simp

@[simp] theorem metTE_parts (e : PathEntry) (st : Station) (q : Pos) (s : State) :
    (metTE e st q s).pass.fwd = s.pass.fwd ∧ (metTE e st q s).pass.own = s.pass.own ∧
      (metTE e st q s).pass.wait = s.pass.wait ∧ (metTE e st q s).pass.granted = s.pass.granted ∧
      (metTE e st q s).pass.memError = s.pass.memError ∧ (metTE e st q s).run.state = s.run.state ∧
      (metTE e st q s).run.standby = s.run.standby ∧ (metTE e st q s).run.timer = s.run.timer ∧
      (metTE e st q s).expect.lines = s.expect.lines ∧ (metTE e st q s).plan.staged = s.plan.staged ∧
      (metTE e st q s).plan.gapMet = s.plan.gapMet ∧ (metTE e st q s).plan.lastRelease = s.plan.lastRelease ∧
      (metTE e st q s).plan.counter = s.plan.counter ∧ (metTE e st q s).track.divsel = s.track.divsel ∧
      (metTE e st q s).track.jogA = s.track.jogA ∧ (metTE e st q s).track.jogB = s.track.jogB ∧
      (metTE e st q s).image.port = s.image.port ∧ (metTE e st q s).report.write = s.report.write ∧
      (metTE e st q s).report.head = s.report.head ∧ (metTE e st q s).report.visible = s.report.visible ∧
      (metTE e st q s).report.tail = s.report.tail ∧ (metTE e st q s).report.outstanding = s.report.outstanding ∧
      (metTE e st q s).report.sinceHead = s.report.sinceHead ∧ (metTE e st q s).report.halted = s.report.halted ∧
      (metTE e st q s).report.headWaits = s.report.headWaits ∧ (metTE e st q s).history.dump = s.history.dump ∧
      (metTE e st q s).tally.nextSerial = s.tally.nextSerial ∧ (metTE e st q s).tally.valid = s.tally.valid := by simp [metTE]

@[simp] theorem matchEdge_parts (e : Edge) (st : Station) (it : Item) (x : PathEntry) (q : Pos) (s : State) :
    (matchEdge e st it x q s).pass.fwd = s.pass.fwd ∧ (matchEdge e st it x q s).pass.own = s.pass.own ∧
      (matchEdge e st it x q s).pass.wait = s.pass.wait ∧ (matchEdge e st it x q s).pass.granted = s.pass.granted ∧
      (matchEdge e st it x q s).pass.memError = s.pass.memError ∧
      (matchEdge e st it x q s).fetch.posted = s.fetch.posted ∧
      (matchEdge e st it x q s).fetch.next = s.fetch.next ∧
      (matchEdge e st it x q s).fetch.inHand = s.fetch.inHand ∧
      (matchEdge e st it x q s).fetch.deferred = s.fetch.deferred ∧
      (matchEdge e st it x q s).fetch.openPiece = s.fetch.openPiece ∧
      (matchEdge e st it x q s).fetch.counter = s.fetch.counter ∧
      (matchEdge e st it x q s).fetch.finish = s.fetch.finish ∧
      (matchEdge e st it x q s).run.standby = s.run.standby ∧
      (matchEdge e st it x q s).expect.lines = s.expect.lines ∧
      (matchEdge e st it x q s).plan.counter = s.plan.counter ∧
      (matchEdge e st it x q s).track.divsel = s.track.divsel ∧
      (matchEdge e st it x q s).track.jogA = s.track.jogA ∧ (matchEdge e st it x q s).track.jogB = s.track.jogB ∧
      (matchEdge e st it x q s).image.port = s.image.port ∧
      (matchEdge e st it x q s).report.write = s.report.write ∧
      (matchEdge e st it x q s).report.head = s.report.head ∧
      (matchEdge e st it x q s).report.visible = s.report.visible ∧
      (matchEdge e st it x q s).report.tail = s.report.tail ∧
      (matchEdge e st it x q s).report.outstanding = s.report.outstanding ∧
      (matchEdge e st it x q s).report.sinceHead = s.report.sinceHead ∧
      (matchEdge e st it x q s).report.halted = s.report.halted ∧
      (matchEdge e st it x q s).report.headWaits = s.report.headWaits ∧
      (matchEdge e st it x q s).history.dump = s.history.dump ∧
      (matchEdge e st it x q s).tally.nextSerial = s.tally.nextSerial ∧
      (matchEdge e st it x q s).tally.valid = s.tally.valid := by
  simp only [matchEdge]
  (repeat' split) <;> simp

@[simp] theorem offerEdge_parts (e : Edge) (st : Station) (q : Pos) (s : State) :
    (offerEdge e st q s).pass.fwd = s.pass.fwd ∧ (offerEdge e st q s).pass.own = s.pass.own ∧
      (offerEdge e st q s).pass.wait = s.pass.wait ∧ (offerEdge e st q s).pass.granted = s.pass.granted ∧
      (offerEdge e st q s).pass.memError = s.pass.memError ∧ (offerEdge e st q s).fetch.posted = s.fetch.posted ∧
      (offerEdge e st q s).fetch.next = s.fetch.next ∧ (offerEdge e st q s).fetch.inHand = s.fetch.inHand ∧
      (offerEdge e st q s).fetch.deferred = s.fetch.deferred ∧
      (offerEdge e st q s).fetch.openPiece = s.fetch.openPiece ∧
      (offerEdge e st q s).fetch.counter = s.fetch.counter ∧ (offerEdge e st q s).fetch.finish = s.fetch.finish ∧
      (offerEdge e st q s).run.standby = s.run.standby ∧ (offerEdge e st q s).expect.lines = s.expect.lines ∧
      (offerEdge e st q s).plan.counter = s.plan.counter ∧ (offerEdge e st q s).track.divsel = s.track.divsel ∧
      (offerEdge e st q s).track.jogA = s.track.jogA ∧ (offerEdge e st q s).track.jogB = s.track.jogB ∧
      (offerEdge e st q s).image.port = s.image.port ∧ (offerEdge e st q s).report.write = s.report.write ∧
      (offerEdge e st q s).report.head = s.report.head ∧ (offerEdge e st q s).report.visible = s.report.visible ∧
      (offerEdge e st q s).report.tail = s.report.tail ∧
      (offerEdge e st q s).report.outstanding = s.report.outstanding ∧
      (offerEdge e st q s).report.sinceHead = s.report.sinceHead ∧
      (offerEdge e st q s).report.halted = s.report.halted ∧
      (offerEdge e st q s).report.headWaits = s.report.headWaits ∧
      (offerEdge e st q s).history.dump = s.history.dump ∧
      (offerEdge e st q s).tally.nextSerial = s.tally.nextSerial ∧ (offerEdge e st q s).tally.valid = s.tally.valid := by
  simp only [offerEdge]
  (repeat' split) <;> simp

@[simp] theorem jog_parts (e : PathEntry) (r : Route) (s : State) :
    (jog e r s).track.path = s.track.path ∧ (jog e r s).track.loop = s.track.loop ∧
      (jog e r s).track.divsel = s.track.divsel ∧ (jog e r s).track.piece = s.track.piece ∧
      (jog e r s).track.store = s.track.store := by
  simp only [jog]
  (repeat' split) <;> simp

@[simp] theorem divert_parts (e : PathEntry) (s : State) :
    (divert e s).fetch.posted = s.fetch.posted ∧ (divert e s).fetch.next = s.fetch.next ∧
      (divert e s).fetch.inHand = s.fetch.inHand ∧ (divert e s).fetch.deferred = s.fetch.deferred ∧
      (divert e s).fetch.openPiece = s.fetch.openPiece ∧ (divert e s).fetch.counter = s.fetch.counter ∧
      (divert e s).fetch.finish = s.fetch.finish ∧ (divert e s).run.standby = s.run.standby ∧
      (divert e s).expect.lines = s.expect.lines ∧ (divert e s).plan.counter = s.plan.counter ∧
      (divert e s).plan.commitment = s.plan.commitment ∧ (divert e s).track.loop = s.track.loop ∧
      (divert e s).image.port = s.image.port ∧ (divert e s).report.write = s.report.write ∧
      (divert e s).report.head = s.report.head ∧ (divert e s).report.visible = s.report.visible ∧
      (divert e s).report.tail = s.report.tail ∧ (divert e s).report.outstanding = s.report.outstanding ∧
      (divert e s).report.sinceHead = s.report.sinceHead ∧ (divert e s).report.halted = s.report.halted ∧
      (divert e s).report.headWaits = s.report.headWaits ∧ (divert e s).history.dump = s.history.dump := by
  simp only [divert]
  (repeat' split) <;> simp

@[simp] theorem topEvent_parts (e : PathEntry) (side : Side) (r : SideRec) (pos : Pos) (s : State) :
    (topEvent e side r pos s).run.state = s.run.state ∧ (topEvent e side r pos s).run.standby = s.run.standby ∧
      (topEvent e side r pos s).run.timer = s.run.timer ∧ (topEvent e side r pos s).expect.lines = s.expect.lines ∧
      (topEvent e side r pos s).report.write = s.report.write ∧
      (topEvent e side r pos s).report.head = s.report.head ∧
      (topEvent e side r pos s).report.visible = s.report.visible ∧
      (topEvent e side r pos s).report.tail = s.report.tail ∧
      (topEvent e side r pos s).report.outstanding = s.report.outstanding ∧
      (topEvent e side r pos s).report.sinceHead = s.report.sinceHead ∧
      (topEvent e side r pos s).report.halted = s.report.halted ∧
      (topEvent e side r pos s).report.headWaits = s.report.headWaits ∧
      (topEvent e side r pos s).history.dump = s.history.dump := by simp [topEvent]

@[simp] theorem checkSide_parts (e : PathEntry) (c : CurrentSide) (pos : Pos) (s : State) :
    (checkSide e c pos s).fetch.posted = s.fetch.posted ∧ (checkSide e c pos s).fetch.next = s.fetch.next ∧
      (checkSide e c pos s).fetch.inHand = s.fetch.inHand ∧
      (checkSide e c pos s).fetch.deferred = s.fetch.deferred ∧
      (checkSide e c pos s).fetch.openPiece = s.fetch.openPiece ∧
      (checkSide e c pos s).fetch.counter = s.fetch.counter ∧ (checkSide e c pos s).fetch.finish = s.fetch.finish ∧
      (checkSide e c pos s).expect.lines = s.expect.lines ∧ (checkSide e c pos s).plan.staged = s.plan.staged ∧
      (checkSide e c pos s).plan.gapMet = s.plan.gapMet ∧
      (checkSide e c pos s).plan.lastRelease = s.plan.lastRelease ∧
      (checkSide e c pos s).plan.counter = s.plan.counter ∧ (checkSide e c pos s).track.divsel = s.track.divsel ∧
      (checkSide e c pos s).track.jogA = s.track.jogA ∧ (checkSide e c pos s).track.jogB = s.track.jogB ∧
      (checkSide e c pos s).track.piece = s.track.piece ∧ (checkSide e c pos s).track.store = s.track.store ∧
      (checkSide e c pos s).image.port = s.image.port ∧ (checkSide e c pos s).history.frozen = s.history.frozen ∧
      (checkSide e c pos s).history.dump = s.history.dump := by
  simp only [checkSide]
  (repeat' split) <;> simp

@[simp] theorem offerAccess_parts (a : Access) (outcome : PolicyOutcome) (s : State) :
    (offerAccess a outcome s).run.state = s.run.state ∧ (offerAccess a outcome s).run.standby = s.run.standby ∧
      (offerAccess a outcome s).run.timer = s.run.timer ∧ (offerAccess a outcome s).report.write = s.report.write ∧
      (offerAccess a outcome s).report.head = s.report.head ∧
      (offerAccess a outcome s).report.visible = s.report.visible ∧
      (offerAccess a outcome s).report.tail = s.report.tail ∧
      (offerAccess a outcome s).report.outstanding = s.report.outstanding ∧
      (offerAccess a outcome s).report.sinceHead = s.report.sinceHead ∧
      (offerAccess a outcome s).report.halted = s.report.halted ∧
      (offerAccess a outcome s).report.headWaits = s.report.headWaits ∧
      (offerAccess a outcome s).history.entries = s.history.entries ∧
      (offerAccess a outcome s).history.dump = s.history.dump := by simp [offerAccess]

@[simp] theorem forward_parts (f : Forwarded) (s : State) :
    (forward f s).pass.own = s.pass.own ∧ (forward f s).pass.wait = s.pass.wait ∧
      (forward f s).pass.granted = s.pass.granted ∧ (forward f s).pass.locks = s.pass.locks ∧
      (forward f s).pass.memError = s.pass.memError := by simp [forward]

@[simp] theorem recordPolicy_parts (row : Option PolicyRow) (outcome : PolicyOutcome) (f : Forwarded) (s : State) :
    (recordPolicy row outcome f s).report.write = s.report.write ∧
      (recordPolicy row outcome f s).report.head = s.report.head ∧
      (recordPolicy row outcome f s).report.visible = s.report.visible ∧
      (recordPolicy row outcome f s).report.tail = s.report.tail ∧
      (recordPolicy row outcome f s).report.outstanding = s.report.outstanding ∧
      (recordPolicy row outcome f s).report.sinceHead = s.report.sinceHead ∧
      (recordPolicy row outcome f s).report.halted = s.report.halted ∧
      (recordPolicy row outcome f s).report.headWaits = s.report.headWaits := by
  simp only [recordPolicy]
  (repeat' split) <;> simp

@[simp] theorem portOutcome_parts (outcome : PolicyOutcome) (f : Forwarded) (s : State) :
    (portOutcome outcome f s).pass.own = s.pass.own ∧ (portOutcome outcome f s).pass.wait = s.pass.wait ∧
      (portOutcome outcome f s).pass.granted = s.pass.granted ∧
      (portOutcome outcome f s).pass.locks = s.pass.locks ∧
      (portOutcome outcome f s).pass.memError = s.pass.memError := by
  simp only [portOutcome]
  (repeat' split) <;> simp

@[simp] theorem takeAccess_parts (a : Access) (s : State) :
    (takeAccess a s).pass.own = s.pass.own ∧ (takeAccess a s).pass.wait = s.pass.wait ∧
      (takeAccess a s).pass.granted = s.pass.granted ∧ (takeAccess a s).pass.locks = s.pass.locks ∧
      (takeAccess a s).pass.memError = s.pass.memError ∧ (takeAccess a s).run.state = s.run.state ∧
      (takeAccess a s).run.standby = s.run.standby ∧ (takeAccess a s).run.timer = s.run.timer ∧
      (takeAccess a s).report.write = s.report.write ∧ (takeAccess a s).report.head = s.report.head ∧
      (takeAccess a s).report.visible = s.report.visible ∧ (takeAccess a s).report.tail = s.report.tail ∧
      (takeAccess a s).report.outstanding = s.report.outstanding ∧
      (takeAccess a s).report.sinceHead = s.report.sinceHead ∧ (takeAccess a s).report.halted = s.report.halted ∧
      (takeAccess a s).report.headWaits = s.report.headWaits ∧
      (takeAccess a s).history.entries = s.history.entries ∧ (takeAccess a s).history.dump = s.history.dump := by
  simp only [takeAccess]
  (repeat' split) <;> simp

@[simp] theorem atPort_parts (a : Access) (s : State) :
    (atPort a s).pass.own = s.pass.own ∧ (atPort a s).pass.wait = s.pass.wait ∧
      (atPort a s).pass.granted = s.pass.granted ∧ (atPort a s).pass.locks = s.pass.locks ∧
      (atPort a s).pass.memError = s.pass.memError ∧ (atPort a s).run.state = s.run.state ∧
      (atPort a s).run.standby = s.run.standby ∧ (atPort a s).run.timer = s.run.timer ∧
      (atPort a s).report.write = s.report.write ∧ (atPort a s).report.head = s.report.head ∧
      (atPort a s).report.visible = s.report.visible ∧ (atPort a s).report.tail = s.report.tail ∧
      (atPort a s).report.outstanding = s.report.outstanding ∧ (atPort a s).report.sinceHead = s.report.sinceHead ∧
      (atPort a s).report.halted = s.report.halted ∧ (atPort a s).report.headWaits = s.report.headWaits ∧
      (atPort a s).history.entries = s.history.entries ∧ (atPort a s).history.dump = s.history.dump := by
  simp only [atPort]
  (repeat' split) <;> simp

@[simp] theorem grant_parts (s : State) :
    (grant s).pass.locks = s.pass.locks ∧ (grant s).pass.memError = s.pass.memError := by
  simp only [grant]
  (repeat' split) <;> simp

@[simp] theorem notePost_parts (i : Nat) (s : State) :
    (notePost i s).fetch.next = s.fetch.next ∧ (notePost i s).fetch.inHand = s.fetch.inHand ∧
      (notePost i s).fetch.openPiece = s.fetch.openPiece ∧ (notePost i s).fetch.schedule = s.fetch.schedule ∧
      (notePost i s).fetch.counter = s.fetch.counter ∧ (notePost i s).fetch.finish = s.fetch.finish := by simp [notePost]

@[simp] theorem pushSetupRead_parts (s : State) :
    (pushSetupRead s).pass.fwd = s.pass.fwd ∧ (pushSetupRead s).pass.wait = s.pass.wait ∧
      (pushSetupRead s).pass.granted = s.pass.granted ∧ (pushSetupRead s).pass.locks = s.pass.locks ∧
      (pushSetupRead s).pass.memError = s.pass.memError ∧ (pushSetupRead s).setup.base = s.setup.base ∧
      (pushSetupRead s).setup.inForce = s.setup.inForce ∧ (pushSetupRead s).setup.revision = s.setup.revision ∧
      (pushSetupRead s).setup.fetch = s.setup.fetch ∧ (pushSetupRead s).setup.done = s.setup.done ∧
      (pushSetupRead s).setup.failed = s.setup.failed ∧ (pushSetupRead s).setup.copy = s.setup.copy := by simp [pushSetupRead]

@[simp] theorem fillSetupReads_parts (n : Nat) (s : State) :
    (fillSetupReads n s).pass.fwd = s.pass.fwd ∧ (fillSetupReads n s).pass.wait = s.pass.wait ∧
      (fillSetupReads n s).pass.granted = s.pass.granted ∧ (fillSetupReads n s).pass.locks = s.pass.locks ∧
      (fillSetupReads n s).pass.memError = s.pass.memError ∧ (fillSetupReads n s).setup.base = s.setup.base ∧
      (fillSetupReads n s).setup.inForce = s.setup.inForce ∧
      (fillSetupReads n s).setup.revision = s.setup.revision ∧ (fillSetupReads n s).setup.fetch = s.setup.fetch ∧
      (fillSetupReads n s).setup.done = s.setup.done ∧ (fillSetupReads n s).setup.failed = s.setup.failed ∧
      (fillSetupReads n s).setup.copy = s.setup.copy := by
  induction n generalizing s with
  | zero => simp [fillSetupReads]
  | succ n ih => (simp only [fillSetupReads]; split) <;> simp [*]

@[simp] theorem beginFetch_parts (s : State) :
    (beginFetch s).pass.fwd = s.pass.fwd ∧ (beginFetch s).pass.wait = s.pass.wait ∧
      (beginFetch s).pass.granted = s.pass.granted ∧ (beginFetch s).pass.locks = s.pass.locks ∧
      (beginFetch s).pass.memError = s.pass.memError ∧ (beginFetch s).setup.base = s.setup.base ∧
      (beginFetch s).setup.inForce = s.setup.inForce ∧ (beginFetch s).setup.revision = s.setup.revision := by simp [beginFetch]

@[simp] theorem noteCommit_parts (s : State) :
    (noteCommit s).pass.fwd = s.pass.fwd ∧ (noteCommit s).pass.wait = s.pass.wait ∧
      (noteCommit s).pass.granted = s.pass.granted ∧ (noteCommit s).pass.locks = s.pass.locks ∧
      (noteCommit s).pass.memError = s.pass.memError ∧ (noteCommit s).report.write = s.report.write ∧
      (noteCommit s).report.head = s.report.head ∧ (noteCommit s).report.visible = s.report.visible ∧
      (noteCommit s).report.tail = s.report.tail ∧ (noteCommit s).report.outstanding = s.report.outstanding ∧
      (noteCommit s).report.sinceHead = s.report.sinceHead ∧ (noteCommit s).report.halted = s.report.halted ∧
      (noteCommit s).report.headWaits = s.report.headWaits ∧ (noteCommit s).setup.base = s.setup.base ∧
      (noteCommit s).setup.inForce = s.setup.inForce ∧ (noteCommit s).setup.revision = s.setup.revision := by
  simp only [noteCommit]
  (repeat' split) <;> simp

@[simp] theorem noteTail_parts (f : Forwarded) (s : State) :
    (noteTail f s).report.write = s.report.write ∧ (noteTail f s).report.head = s.report.head ∧
      (noteTail f s).report.visible = s.report.visible ∧ (noteTail f s).report.outstanding = s.report.outstanding ∧
      (noteTail f s).report.sinceHead = s.report.sinceHead ∧ (noteTail f s).report.halted = s.report.halted ∧
      (noteTail f s).report.headWaits = s.report.headWaits := by
  simp only [noteTail]
  (repeat' split) <;> simp

@[simp] theorem completeWrite_parts (f : Forwarded) (s : State) :
    (completeWrite f s).pass.fwd = s.pass.fwd ∧ (completeWrite f s).pass.wait = s.pass.wait ∧
      (completeWrite f s).pass.granted = s.pass.granted ∧ (completeWrite f s).pass.locks = s.pass.locks ∧
      (completeWrite f s).pass.memError = s.pass.memError ∧ (completeWrite f s).fetch.next = s.fetch.next ∧
      (completeWrite f s).fetch.inHand = s.fetch.inHand ∧ (completeWrite f s).fetch.openPiece = s.fetch.openPiece ∧
      (completeWrite f s).fetch.schedule = s.fetch.schedule ∧ (completeWrite f s).fetch.counter = s.fetch.counter ∧
      (completeWrite f s).fetch.finish = s.fetch.finish ∧ (completeWrite f s).report.write = s.report.write ∧
      (completeWrite f s).report.head = s.report.head ∧ (completeWrite f s).report.visible = s.report.visible ∧
      (completeWrite f s).report.outstanding = s.report.outstanding ∧
      (completeWrite f s).report.sinceHead = s.report.sinceHead ∧
      (completeWrite f s).report.halted = s.report.halted ∧
      (completeWrite f s).report.headWaits = s.report.headWaits ∧ (completeWrite f s).setup.base = s.setup.base ∧
      (completeWrite f s).setup.inForce = s.setup.inForce ∧ (completeWrite f s).setup.revision = s.setup.revision := by
  simp only [completeWrite]
  (repeat' split) <;> simp

@[simp] theorem completeRead_parts (f : Forwarded) (data : List Byte) (s : State) :
    (completeRead f data s).image.port = s.image.port := by
  simp only [completeRead]
  (repeat' split) <;> simp

@[simp] theorem issueSlotRead_parts (s : State) :
    (issueSlotRead s).pass.fwd = s.pass.fwd ∧ (issueSlotRead s).pass.wait = s.pass.wait ∧
      (issueSlotRead s).pass.granted = s.pass.granted ∧ (issueSlotRead s).pass.locks = s.pass.locks ∧
      (issueSlotRead s).pass.memError = s.pass.memError ∧ (issueSlotRead s).fetch.posted = s.fetch.posted ∧
      (issueSlotRead s).fetch.next = s.fetch.next ∧ (issueSlotRead s).fetch.deferred = s.fetch.deferred ∧
      (issueSlotRead s).fetch.openPiece = s.fetch.openPiece ∧ (issueSlotRead s).fetch.schedule = s.fetch.schedule ∧
      (issueSlotRead s).fetch.counter = s.fetch.counter ∧ (issueSlotRead s).fetch.finish = s.fetch.finish := by simp [issueSlotRead]

@[simp] theorem handOption_parts (r : Option Record) (s : State) :
    (handOption r s).report.write = s.report.write ∧ (handOption r s).report.head = s.report.head ∧
      (handOption r s).report.visible = s.report.visible ∧ (handOption r s).report.tail = s.report.tail ∧
      (handOption r s).report.outstanding = s.report.outstanding ∧
      (handOption r s).report.sinceHead = s.report.sinceHead ∧ (handOption r s).report.halted = s.report.halted ∧
      (handOption r s).report.headWaits = s.report.headWaits := by
  simp only [handOption]
  (repeat' split) <;> simp

@[simp] theorem finishNow_parts (f : Finish) (s : State) :
    (finishNow f s).pass.fwd = s.pass.fwd ∧ (finishNow f s).pass.wait = s.pass.wait ∧
      (finishNow f s).pass.granted = s.pass.granted ∧ (finishNow f s).pass.memError = s.pass.memError ∧
      (finishNow f s).fetch.inHand = s.fetch.inHand ∧ (finishNow f s).fetch.counter = s.fetch.counter ∧
      (finishNow f s).expect.lines = s.expect.lines ∧ (finishNow f s).plan.staged = s.plan.staged ∧
      (finishNow f s).plan.gapMet = s.plan.gapMet ∧ (finishNow f s).plan.lastRelease = s.plan.lastRelease ∧
      (finishNow f s).plan.counter = s.plan.counter ∧ (finishNow f s).track.divsel = s.track.divsel ∧
      (finishNow f s).track.jogA = s.track.jogA ∧ (finishNow f s).track.jogB = s.track.jogB ∧
      (finishNow f s).image.port = s.image.port ∧ (finishNow f s).report.write = s.report.write ∧
      (finishNow f s).report.head = s.report.head ∧ (finishNow f s).report.visible = s.report.visible ∧
      (finishNow f s).report.tail = s.report.tail ∧ (finishNow f s).report.outstanding = s.report.outstanding ∧
      (finishNow f s).report.sinceHead = s.report.sinceHead ∧ (finishNow f s).report.halted = s.report.halted ∧
      (finishNow f s).report.headWaits = s.report.headWaits := by
  simp only [finishNow]
  (repeat' split) <;> simp

@[simp] theorem finishSlot_parts (f : Finish) (s : State) :
    (finishSlot f s).pass.fwd = s.pass.fwd ∧ (finishSlot f s).pass.wait = s.pass.wait ∧
      (finishSlot f s).pass.granted = s.pass.granted ∧ (finishSlot f s).pass.memError = s.pass.memError ∧
      (finishSlot f s).fetch.inHand = s.fetch.inHand ∧ (finishSlot f s).fetch.counter = s.fetch.counter ∧
      (finishSlot f s).expect.lines = s.expect.lines ∧ (finishSlot f s).plan.staged = s.plan.staged ∧
      (finishSlot f s).plan.gapMet = s.plan.gapMet ∧ (finishSlot f s).plan.lastRelease = s.plan.lastRelease ∧
      (finishSlot f s).plan.counter = s.plan.counter ∧ (finishSlot f s).track.divsel = s.track.divsel ∧
      (finishSlot f s).track.jogA = s.track.jogA ∧ (finishSlot f s).track.jogB = s.track.jogB ∧
      (finishSlot f s).image.port = s.image.port ∧ (finishSlot f s).report.write = s.report.write ∧
      (finishSlot f s).report.head = s.report.head ∧ (finishSlot f s).report.visible = s.report.visible ∧
      (finishSlot f s).report.tail = s.report.tail ∧ (finishSlot f s).report.outstanding = s.report.outstanding ∧
      (finishSlot f s).report.sinceHead = s.report.sinceHead ∧ (finishSlot f s).report.halted = s.report.halted ∧
      (finishSlot f s).report.headWaits = s.report.headWaits := by
  simp only [finishSlot]
  (repeat' split) <;> simp

@[simp] theorem rejectOrder_parts (reason : RejectReason) (slot : List Byte) (s : State) :
    (rejectOrder reason slot s).pass.fwd = s.pass.fwd ∧ (rejectOrder reason slot s).pass.wait = s.pass.wait ∧
      (rejectOrder reason slot s).pass.granted = s.pass.granted ∧
      (rejectOrder reason slot s).pass.memError = s.pass.memError ∧
      (rejectOrder reason slot s).fetch.inHand = s.fetch.inHand ∧
      (rejectOrder reason slot s).fetch.counter = s.fetch.counter ∧
      (rejectOrder reason slot s).expect.lines = s.expect.lines ∧
      (rejectOrder reason slot s).plan.staged = s.plan.staged ∧
      (rejectOrder reason slot s).plan.gapMet = s.plan.gapMet ∧
      (rejectOrder reason slot s).plan.lastRelease = s.plan.lastRelease ∧
      (rejectOrder reason slot s).plan.counter = s.plan.counter ∧
      (rejectOrder reason slot s).track.divsel = s.track.divsel ∧
      (rejectOrder reason slot s).track.jogA = s.track.jogA ∧
      (rejectOrder reason slot s).track.jogB = s.track.jogB ∧
      (rejectOrder reason slot s).image.port = s.image.port ∧
      (rejectOrder reason slot s).report.write = s.report.write ∧
      (rejectOrder reason slot s).report.head = s.report.head ∧
      (rejectOrder reason slot s).report.visible = s.report.visible ∧
      (rejectOrder reason slot s).report.tail = s.report.tail ∧
      (rejectOrder reason slot s).report.outstanding = s.report.outstanding ∧
      (rejectOrder reason slot s).report.sinceHead = s.report.sinceHead ∧
      (rejectOrder reason slot s).report.halted = s.report.halted ∧
      (rejectOrder reason slot s).report.headWaits = s.report.headWaits := by simp [rejectOrder]

@[simp] theorem answerControl_parts (slot : List Byte) (r : ControlResult) (s : State) :
    (answerControl slot r s).pass.fwd = s.pass.fwd ∧ (answerControl slot r s).pass.wait = s.pass.wait ∧
      (answerControl slot r s).pass.granted = s.pass.granted ∧
      (answerControl slot r s).pass.memError = s.pass.memError ∧
      (answerControl slot r s).fetch.inHand = s.fetch.inHand ∧
      (answerControl slot r s).fetch.counter = s.fetch.counter ∧
      (answerControl slot r s).expect.lines = s.expect.lines ∧
      (answerControl slot r s).plan.staged = s.plan.staged ∧ (answerControl slot r s).plan.gapMet = s.plan.gapMet ∧
      (answerControl slot r s).plan.lastRelease = s.plan.lastRelease ∧
      (answerControl slot r s).plan.counter = s.plan.counter ∧
      (answerControl slot r s).track.divsel = s.track.divsel ∧ (answerControl slot r s).track.jogA = s.track.jogA ∧
      (answerControl slot r s).track.jogB = s.track.jogB ∧ (answerControl slot r s).image.port = s.image.port ∧
      (answerControl slot r s).report.write = s.report.write ∧
      (answerControl slot r s).report.head = s.report.head ∧
      (answerControl slot r s).report.visible = s.report.visible ∧
      (answerControl slot r s).report.tail = s.report.tail ∧
      (answerControl slot r s).report.outstanding = s.report.outstanding ∧
      (answerControl slot r s).report.sinceHead = s.report.sinceHead ∧
      (answerControl slot r s).report.halted = s.report.halted ∧
      (answerControl slot r s).report.headWaits = s.report.headWaits := by simp [answerControl]

@[simp] theorem decideRun_parts (s : State) :
    (decideRun s).fetch.posted = s.fetch.posted ∧ (decideRun s).fetch.next = s.fetch.next ∧
      (decideRun s).fetch.inHand = s.fetch.inHand ∧ (decideRun s).fetch.deferred = s.fetch.deferred ∧
      (decideRun s).fetch.openPiece = s.fetch.openPiece ∧ (decideRun s).fetch.counter = s.fetch.counter ∧
      (decideRun s).fetch.finish = s.fetch.finish ∧ (decideRun s).run.standby = s.run.standby ∧
      (decideRun s).expect.lines = s.expect.lines ∧ (decideRun s).plan.counter = s.plan.counter ∧
      (decideRun s).plan.commitment = s.plan.commitment ∧ (decideRun s).track.loop = s.track.loop ∧
      (decideRun s).track.divsel = s.track.divsel ∧ (decideRun s).track.jogA = s.track.jogA ∧
      (decideRun s).track.jogB = s.track.jogB ∧ (decideRun s).image.port = s.image.port ∧
      (decideRun s).report.write = s.report.write ∧ (decideRun s).report.head = s.report.head ∧
      (decideRun s).report.visible = s.report.visible ∧ (decideRun s).report.tail = s.report.tail ∧
      (decideRun s).report.outstanding = s.report.outstanding ∧
      (decideRun s).report.sinceHead = s.report.sinceHead ∧ (decideRun s).report.halted = s.report.halted ∧
      (decideRun s).report.headWaits = s.report.headWaits ∧ (decideRun s).history.dump = s.history.dump ∧
      (decideRun s).track.store = s.track.store ∧ (decideRun s).track.piece = s.track.piece := by simp [decideRun]

@[simp] theorem dropStale_parts (s : State) :
    (dropStale s).fetch.next = s.fetch.next ∧ (dropStale s).fetch.openPiece = s.fetch.openPiece ∧
      (dropStale s).fetch.schedule = s.fetch.schedule ∧ (dropStale s).fetch.counter = s.fetch.counter ∧
      (dropStale s).fetch.finish = s.fetch.finish := by simp [dropStale]

@[simp] theorem deferSheet_parts (s : State) :
    (deferSheet s).fetch.posted = s.fetch.posted ∧ (deferSheet s).fetch.next = s.fetch.next ∧
      (deferSheet s).fetch.openPiece = s.fetch.openPiece ∧ (deferSheet s).fetch.schedule = s.fetch.schedule ∧
      (deferSheet s).fetch.counter = s.fetch.counter ∧ (deferSheet s).fetch.finish = s.fetch.finish := by simp [deferSheet]

@[simp] theorem acceptSheet_parts (slot : List Byte) (s : State) :
    (acceptSheet slot s).pass.fwd = s.pass.fwd ∧ (acceptSheet slot s).pass.own = s.pass.own ∧
      (acceptSheet slot s).pass.wait = s.pass.wait ∧ (acceptSheet slot s).pass.granted = s.pass.granted ∧
      (acceptSheet slot s).pass.memError = s.pass.memError ∧ (acceptSheet slot s).fetch.posted = s.fetch.posted ∧
      (acceptSheet slot s).fetch.next = s.fetch.next ∧ (acceptSheet slot s).fetch.inHand = s.fetch.inHand ∧
      (acceptSheet slot s).fetch.deferred = s.fetch.deferred ∧ (acceptSheet slot s).fetch.finish = s.fetch.finish := by simp [acceptSheet]

@[simp] theorem handleSheet_parts (slot : List Byte) (s : State) :
    (handleSheet slot s).pass.fwd = s.pass.fwd ∧ (handleSheet slot s).pass.wait = s.pass.wait ∧
      (handleSheet slot s).pass.granted = s.pass.granted ∧ (handleSheet slot s).pass.memError = s.pass.memError ∧
      (handleSheet slot s).expect.lines = s.expect.lines ∧ (handleSheet slot s).plan.staged = s.plan.staged ∧
      (handleSheet slot s).plan.gapMet = s.plan.gapMet ∧
      (handleSheet slot s).plan.lastRelease = s.plan.lastRelease ∧
      (handleSheet slot s).plan.counter = s.plan.counter ∧ (handleSheet slot s).track.divsel = s.track.divsel ∧
      (handleSheet slot s).track.jogA = s.track.jogA ∧ (handleSheet slot s).track.jogB = s.track.jogB ∧
      (handleSheet slot s).image.port = s.image.port ∧ (handleSheet slot s).report.write = s.report.write ∧
      (handleSheet slot s).report.head = s.report.head ∧ (handleSheet slot s).report.visible = s.report.visible ∧
      (handleSheet slot s).report.tail = s.report.tail ∧
      (handleSheet slot s).report.outstanding = s.report.outstanding ∧
      (handleSheet slot s).report.sinceHead = s.report.sinceHead ∧
      (handleSheet slot s).report.halted = s.report.halted ∧
      (handleSheet slot s).report.headWaits = s.report.headWaits := by
  simp only [handleSheet]
  (repeat' split) <;> simp

@[simp] theorem closeOpen_parts (p : PieceId) (s : State) :
    (closeOpen p s).fetch.posted = s.fetch.posted ∧ (closeOpen p s).fetch.next = s.fetch.next ∧
      (closeOpen p s).fetch.inHand = s.fetch.inHand ∧ (closeOpen p s).fetch.deferred = s.fetch.deferred ∧
      (closeOpen p s).fetch.schedule = s.fetch.schedule ∧ (closeOpen p s).fetch.counter = s.fetch.counter ∧
      (closeOpen p s).fetch.finish = s.fetch.finish := by
  simp only [closeOpen]
  (repeat' split) <;> simp

@[simp] theorem pushDumpWrite_parts (d : Dump) (s : State) :
    (pushDumpWrite d s).pass.fwd = s.pass.fwd ∧ (pushDumpWrite d s).pass.wait = s.pass.wait ∧
      (pushDumpWrite d s).pass.granted = s.pass.granted ∧ (pushDumpWrite d s).pass.locks = s.pass.locks ∧
      (pushDumpWrite d s).pass.memError = s.pass.memError ∧
      (pushDumpWrite d s).history.entries = s.history.entries ∧
      (pushDumpWrite d s).history.frozen = s.history.frozen := by simp [pushDumpWrite]

@[simp] theorem fillDump_parts (n : Nat) (s : State) :
    (fillDump n s).pass.fwd = s.pass.fwd ∧ (fillDump n s).pass.wait = s.pass.wait ∧
      (fillDump n s).pass.granted = s.pass.granted ∧ (fillDump n s).pass.locks = s.pass.locks ∧
      (fillDump n s).pass.memError = s.pass.memError ∧ (fillDump n s).history.entries = s.history.entries ∧
      (fillDump n s).history.frozen = s.history.frozen := by
  induction n generalizing s with
  | zero => simp [fillDump]
  | succ n ih => (simp only [fillDump]; (repeat' split)) <;> simp [*]

@[simp] theorem endDump_parts (d : Dump) (s : State) :
    (endDump d s).report.write = s.report.write ∧ (endDump d s).report.head = s.report.head ∧
      (endDump d s).report.visible = s.report.visible ∧ (endDump d s).report.tail = s.report.tail ∧
      (endDump d s).report.outstanding = s.report.outstanding ∧
      (endDump d s).report.sinceHead = s.report.sinceHead ∧ (endDump d s).report.halted = s.report.halted ∧
      (endDump d s).report.headWaits = s.report.headWaits ∧ (endDump d s).history.entries = s.history.entries := by simp [endDump]

@[simp] theorem pushZeroHead_parts (s : State) :
    (pushZeroHead s).pass.fwd = s.pass.fwd ∧ (pushZeroHead s).pass.wait = s.pass.wait ∧
      (pushZeroHead s).pass.granted = s.pass.granted ∧ (pushZeroHead s).pass.locks = s.pass.locks ∧
      (pushZeroHead s).pass.memError = s.pass.memError ∧ (pushZeroHead s).report.queue = s.report.queue ∧
      (pushZeroHead s).report.write = s.report.write ∧ (pushZeroHead s).report.head = s.report.head ∧
      (pushZeroHead s).report.visible = s.report.visible ∧ (pushZeroHead s).report.tail = s.report.tail ∧
      (pushZeroHead s).report.outstanding = s.report.outstanding ∧
      (pushZeroHead s).report.sinceHead = s.report.sinceHead ∧ (pushZeroHead s).report.halted = s.report.halted := by simp [pushZeroHead]

@[simp] theorem handOver_parts (block : OwnBlock) (s : State) :
    (handOver block s).pass.fwd = s.pass.fwd ∧ (handOver block s).pass.wait = s.pass.wait ∧
      (handOver block s).pass.granted = s.pass.granted ∧ (handOver block s).pass.memError = s.pass.memError ∧
      (handOver block s).fetch.inHand = s.fetch.inHand ∧ (handOver block s).fetch.counter = s.fetch.counter ∧
      (handOver block s).run.standby = s.run.standby ∧ (handOver block s).time.acc = s.time.acc ∧
      (handOver block s).time.estimate = s.time.estimate ∧ (handOver block s).time.estTicks = s.time.estTicks ∧
      (handOver block s).time.pulsed = s.time.pulsed ∧ (handOver block s).time.restored = s.time.restored ∧
      (handOver block s).expect.lines = s.expect.lines ∧ (handOver block s).track.divsel = s.track.divsel ∧
      (handOver block s).track.jogA = s.track.jogA ∧ (handOver block s).track.jogB = s.track.jogB ∧
      (handOver block s).image.port = s.image.port ∧ (handOver block s).report.write = s.report.write ∧
      (handOver block s).report.head = s.report.head ∧ (handOver block s).report.visible = s.report.visible ∧
      (handOver block s).report.tail = s.report.tail ∧
      (handOver block s).report.outstanding = s.report.outstanding ∧
      (handOver block s).report.sinceHead = s.report.sinceHead ∧
      (handOver block s).report.halted = s.report.halted ∧ (handOver block s).setup.base = s.setup.base ∧
      (handOver block s).setup.inForce = s.setup.inForce ∧ (handOver block s).setup.revision = s.setup.revision ∧
      (handOver block s).setup.fetch = s.setup.fetch ∧ (handOver block s).setup.done = s.setup.done ∧
      (handOver block s).setup.failed = s.setup.failed ∧ (handOver block s).setup.copy = s.setup.copy ∧
      (handOver block s).tally.delivered = s.tally.delivered ∧
      (handOver block s).tally.lastSerial = s.tally.lastSerial ∧
      (handOver block s).tally.lastPiece = s.tally.lastPiece ∧ (handOver block s).tally.valid = s.tally.valid := by
  simp only [handOver]
  (repeat' split) <;> simp

@[simp] theorem endFetch_parts (s : State) :
    (endFetch s).report.write = s.report.write ∧ (endFetch s).report.head = s.report.head ∧
      (endFetch s).report.visible = s.report.visible ∧ (endFetch s).report.tail = s.report.tail ∧
      (endFetch s).report.outstanding = s.report.outstanding ∧ (endFetch s).report.sinceHead = s.report.sinceHead ∧
      (endFetch s).report.halted = s.report.halted ∧ (endFetch s).report.headWaits = s.report.headWaits ∧
      (endFetch s).setup.base = s.setup.base ∧ (endFetch s).setup.inForce = s.setup.inForce ∧
      (endFetch s).setup.revision = s.setup.revision ∧ (endFetch s).setup.issued = s.setup.issued ∧
      (endFetch s).setup.done = s.setup.done ∧ (endFetch s).setup.failed = s.setup.failed := by
  simp only [endFetch]
  (repeat' split) <;> simp

@[simp] theorem noteSetupRead_parts (ok : Bool) (data : List Byte) (s : State) :
    (noteSetupRead ok data s).report.write = s.report.write ∧
      (noteSetupRead ok data s).report.head = s.report.head ∧
      (noteSetupRead ok data s).report.visible = s.report.visible ∧
      (noteSetupRead ok data s).report.tail = s.report.tail ∧
      (noteSetupRead ok data s).report.outstanding = s.report.outstanding ∧
      (noteSetupRead ok data s).report.sinceHead = s.report.sinceHead ∧
      (noteSetupRead ok data s).report.halted = s.report.halted ∧
      (noteSetupRead ok data s).report.headWaits = s.report.headWaits ∧
      (noteSetupRead ok data s).setup.base = s.setup.base ∧
      (noteSetupRead ok data s).setup.inForce = s.setup.inForce ∧
      (noteSetupRead ok data s).setup.revision = s.setup.revision ∧
      (noteSetupRead ok data s).setup.issued = s.setup.issued := by simp [noteSetupRead]

@[simp] theorem refuseSetup_parts (reason : SetupOutcome) (s : State) :
    (refuseSetup reason s).report.write = s.report.write ∧ (refuseSetup reason s).report.head = s.report.head ∧
      (refuseSetup reason s).report.visible = s.report.visible ∧
      (refuseSetup reason s).report.tail = s.report.tail ∧
      (refuseSetup reason s).report.outstanding = s.report.outstanding ∧
      (refuseSetup reason s).report.sinceHead = s.report.sinceHead ∧
      (refuseSetup reason s).report.halted = s.report.halted ∧
      (refuseSetup reason s).report.headWaits = s.report.headWaits ∧
      (refuseSetup reason s).setup.base = s.setup.base ∧ (refuseSetup reason s).setup.inForce = s.setup.inForce ∧
      (refuseSetup reason s).setup.revision = s.setup.revision ∧
      (refuseSetup reason s).setup.issued = s.setup.issued ∧ (refuseSetup reason s).setup.done = s.setup.done ∧
      (refuseSetup reason s).setup.failed = s.setup.failed := by simp [refuseSetup]

@[simp] theorem enforceSetup_parts (s : State) :
    (enforceSetup s).setup.base = s.setup.base ∧ (enforceSetup s).setup.issued = s.setup.issued ∧
      (enforceSetup s).setup.done = s.setup.done ∧ (enforceSetup s).setup.failed = s.setup.failed := by simp [enforceSetup]

@[simp] theorem acceptBlocks_parts (s : State) :
    (acceptBlocks s).pass.fwd = s.pass.fwd ∧ (acceptBlocks s).pass.own = s.pass.own ∧
      (acceptBlocks s).pass.wait = s.pass.wait ∧ (acceptBlocks s).pass.granted = s.pass.granted ∧
      (acceptBlocks s).pass.memError = s.pass.memError ∧ (acceptBlocks s).fetch.openPiece = s.fetch.openPiece ∧
      (acceptBlocks s).fetch.schedule = s.fetch.schedule ∧ (acceptBlocks s).fetch.finish = s.fetch.finish ∧
      (acceptBlocks s).plan.staged = s.plan.staged ∧ (acceptBlocks s).plan.lastStacker = s.plan.lastStacker ∧
      (acceptBlocks s).plan.counter = s.plan.counter ∧ (acceptBlocks s).plan.commitment = s.plan.commitment ∧
      (acceptBlocks s).track.path = s.track.path ∧ (acceptBlocks s).track.loop = s.track.loop ∧
      (acceptBlocks s).track.divsel = s.track.divsel ∧ (acceptBlocks s).track.jogA = s.track.jogA ∧
      (acceptBlocks s).track.jogB = s.track.jogB ∧ (acceptBlocks s).track.store = s.track.store ∧
      (acceptBlocks s).report.queue = s.report.queue := by simp [acceptBlocks]

@[simp] theorem headOfAcceptance_parts (s : State) :
    (headOfAcceptance s).pass.fwd = s.pass.fwd ∧ (headOfAcceptance s).pass.wait = s.pass.wait ∧
      (headOfAcceptance s).pass.granted = s.pass.granted ∧ (headOfAcceptance s).pass.locks = s.pass.locks ∧
      (headOfAcceptance s).pass.memError = s.pass.memError ∧ (headOfAcceptance s).report.queue = s.report.queue ∧
      (headOfAcceptance s).report.write = s.report.write ∧ (headOfAcceptance s).report.head = s.report.head ∧
      (headOfAcceptance s).report.visible = s.report.visible ∧ (headOfAcceptance s).report.tail = s.report.tail ∧
      (headOfAcceptance s).report.outstanding = s.report.outstanding ∧
      (headOfAcceptance s).report.sinceHead = s.report.sinceHead ∧
      (headOfAcceptance s).report.halted = s.report.halted := by
  simp only [headOfAcceptance]
  (repeat' split) <;> simp

@[simp] theorem acceptSetup_parts (s : State) :
    (acceptSetup s).pass.fwd = s.pass.fwd ∧ (acceptSetup s).pass.wait = s.pass.wait ∧
      (acceptSetup s).pass.granted = s.pass.granted ∧ (acceptSetup s).pass.memError = s.pass.memError ∧
      (acceptSetup s).fetch.openPiece = s.fetch.openPiece ∧ (acceptSetup s).fetch.schedule = s.fetch.schedule ∧
      (acceptSetup s).fetch.finish = s.fetch.finish ∧ (acceptSetup s).run.hold = s.run.hold ∧
      (acceptSetup s).run.standby = s.run.standby ∧ (acceptSetup s).run.timer = s.run.timer ∧
      (acceptSetup s).plan.staged = s.plan.staged ∧ (acceptSetup s).plan.lastStacker = s.plan.lastStacker ∧
      (acceptSetup s).plan.counter = s.plan.counter ∧ (acceptSetup s).plan.commitment = s.plan.commitment ∧
      (acceptSetup s).track.path = s.track.path ∧ (acceptSetup s).track.loop = s.track.loop ∧
      (acceptSetup s).track.divsel = s.track.divsel ∧ (acceptSetup s).track.jogA = s.track.jogA ∧
      (acceptSetup s).track.jogB = s.track.jogB ∧ (acceptSetup s).track.store = s.track.store ∧
      (acceptSetup s).setup.base = s.setup.base ∧ (acceptSetup s).setup.issued = s.setup.issued ∧
      (acceptSetup s).setup.done = s.setup.done ∧ (acceptSetup s).setup.failed = s.setup.failed := by
  simp only [acceptSetup]
  (repeat' split) <;> simp

@[simp] theorem issueRecord_parts (q : Queued) (qs : List Queued) (s : State) :
    (issueRecord q qs s).pass.fwd = s.pass.fwd ∧ (issueRecord q qs s).pass.wait = s.pass.wait ∧
      (issueRecord q qs s).pass.granted = s.pass.granted ∧ (issueRecord q qs s).pass.locks = s.pass.locks ∧
      (issueRecord q qs s).pass.memError = s.pass.memError ∧ (issueRecord q qs s).report.write = s.report.write ∧
      (issueRecord q qs s).report.head = s.report.head ∧ (issueRecord q qs s).report.visible = s.report.visible ∧
      (issueRecord q qs s).report.tail = s.report.tail ∧
      (issueRecord q qs s).report.sinceHead = s.report.sinceHead ∧
      (issueRecord q qs s).report.halted = s.report.halted ∧
      (issueRecord q qs s).report.headWaits = s.report.headWaits := by simp [issueRecord]

@[simp] theorem recordWritten_parts (q : Queued) (qs : List Queued) (s : State) :
    (recordWritten q qs s).report.head = s.report.head ∧ (recordWritten q qs s).report.visible = s.report.visible ∧
      (recordWritten q qs s).report.tail = s.report.tail ∧ (recordWritten q qs s).report.halted = s.report.halted ∧
      (recordWritten q qs s).report.headWaits = s.report.headWaits := by simp [recordWritten]

@[simp] theorem issueHead_parts (s : State) :
    (issueHead s).pass.fwd = s.pass.fwd ∧ (issueHead s).pass.wait = s.pass.wait ∧
      (issueHead s).pass.granted = s.pass.granted ∧ (issueHead s).pass.locks = s.pass.locks ∧
      (issueHead s).pass.memError = s.pass.memError ∧ (issueHead s).report.queue = s.report.queue ∧
      (issueHead s).report.write = s.report.write ∧ (issueHead s).report.visible = s.report.visible ∧
      (issueHead s).report.tail = s.report.tail ∧ (issueHead s).report.halted = s.report.halted ∧
      (issueHead s).report.headWaits = s.report.headWaits := by simp [issueHead]

@[simp] theorem noteDumpWrite_parts (d : Dump) (s : State) :
    (noteDumpWrite d s).report.write = s.report.write ∧ (noteDumpWrite d s).report.head = s.report.head ∧
      (noteDumpWrite d s).report.visible = s.report.visible ∧ (noteDumpWrite d s).report.tail = s.report.tail ∧
      (noteDumpWrite d s).report.outstanding = s.report.outstanding ∧
      (noteDumpWrite d s).report.sinceHead = s.report.sinceHead ∧
      (noteDumpWrite d s).report.halted = s.report.halted ∧
      (noteDumpWrite d s).report.headWaits = s.report.headWaits ∧
      (noteDumpWrite d s).history.entries = s.history.entries := by
  simp only [noteDumpWrite]
  (repeat' split) <;> simp

@[simp] theorem blockError_parts (k : OwnKind) (s : State) :
    (blockError k s).fetch.posted = s.fetch.posted ∧ (blockError k s).fetch.next = s.fetch.next ∧
      (blockError k s).fetch.deferred = s.fetch.deferred ∧ (blockError k s).fetch.openPiece = s.fetch.openPiece ∧
      (blockError k s).fetch.schedule = s.fetch.schedule ∧ (blockError k s).fetch.counter = s.fetch.counter ∧
      (blockError k s).fetch.finish = s.fetch.finish ∧ (blockError k s).report.write = s.report.write ∧
      (blockError k s).report.head = s.report.head ∧ (blockError k s).report.visible = s.report.visible ∧
      (blockError k s).report.tail = s.report.tail ∧ (blockError k s).report.sinceHead = s.report.sinceHead ∧
      (blockError k s).report.headWaits = s.report.headWaits ∧
      (blockError k s).history.entries = s.history.entries ∧ (blockError k s).setup.base = s.setup.base ∧
      (blockError k s).setup.inForce = s.setup.inForce ∧ (blockError k s).setup.revision = s.setup.revision ∧
      (blockError k s).setup.issued = s.setup.issued := by
  simp only [blockError]
  (repeat' split) <;> simp

@[simp] theorem flagError_parts (s : State) :
    (flagError s).pass.fwd = s.pass.fwd ∧ (flagError s).pass.own = s.pass.own ∧
      (flagError s).pass.wait = s.pass.wait ∧ (flagError s).pass.granted = s.pass.granted ∧
      (flagError s).pass.locks = s.pass.locks := by simp [flagError]

@[simp] theorem ownError_parts (k : OwnKind) (s : State) :
    (ownError k s).pass.fwd = s.pass.fwd ∧ (ownError k s).pass.own = s.pass.own ∧
      (ownError k s).pass.wait = s.pass.wait ∧ (ownError k s).pass.granted = s.pass.granted ∧
      (ownError k s).pass.locks = s.pass.locks ∧ (ownError k s).fetch.posted = s.fetch.posted ∧
      (ownError k s).fetch.next = s.fetch.next ∧ (ownError k s).fetch.deferred = s.fetch.deferred ∧
      (ownError k s).fetch.openPiece = s.fetch.openPiece ∧ (ownError k s).fetch.counter = s.fetch.counter ∧
      (ownError k s).fetch.finish = s.fetch.finish ∧ (ownError k s).run.standby = s.run.standby ∧
      (ownError k s).expect.lines = s.expect.lines ∧ (ownError k s).plan.counter = s.plan.counter ∧
      (ownError k s).plan.commitment = s.plan.commitment ∧ (ownError k s).track.loop = s.track.loop ∧
      (ownError k s).track.divsel = s.track.divsel ∧ (ownError k s).track.jogA = s.track.jogA ∧
      (ownError k s).track.jogB = s.track.jogB ∧ (ownError k s).image.port = s.image.port ∧
      (ownError k s).report.write = s.report.write ∧ (ownError k s).report.head = s.report.head ∧
      (ownError k s).report.visible = s.report.visible ∧ (ownError k s).report.tail = s.report.tail ∧
      (ownError k s).report.sinceHead = s.report.sinceHead ∧ (ownError k s).report.headWaits = s.report.headWaits ∧
      (ownError k s).setup.base = s.setup.base ∧ (ownError k s).setup.inForce = s.setup.inForce ∧
      (ownError k s).setup.revision = s.setup.revision ∧ (ownError k s).setup.issued = s.setup.issued := by
  simp only [ownError]
  (repeat' split) <;> simp

@[simp] theorem handRestored_parts (s : State) :
    (handRestored s).report.write = s.report.write ∧ (handRestored s).report.head = s.report.head ∧
      (handRestored s).report.visible = s.report.visible ∧ (handRestored s).report.tail = s.report.tail ∧
      (handRestored s).report.outstanding = s.report.outstanding ∧
      (handRestored s).report.sinceHead = s.report.sinceHead ∧ (handRestored s).report.halted = s.report.halted ∧
      (handRestored s).report.headWaits = s.report.headWaits := by simp [handRestored]

@[simp] theorem estimatePulse_parts (s : State) :
    (estimatePulse s).time.pos = s.time.pos ∧ (estimatePulse s).time.acc = s.time.acc ∧
      (estimatePulse s).time.estimate = s.time.estimate ∧ (estimatePulse s).time.silence = s.time.silence ∧
      (estimatePulse s).time.estTicks = s.time.estTicks ∧ (estimatePulse s).time.owed = s.time.owed ∧
      (estimatePulse s).report.write = s.report.write ∧ (estimatePulse s).report.head = s.report.head ∧
      (estimatePulse s).report.visible = s.report.visible ∧ (estimatePulse s).report.tail = s.report.tail ∧
      (estimatePulse s).report.outstanding = s.report.outstanding ∧
      (estimatePulse s).report.sinceHead = s.report.sinceHead ∧ (estimatePulse s).report.halted = s.report.halted ∧
      (estimatePulse s).report.headWaits = s.report.headWaits := by
  simp only [estimatePulse]
  (repeat' split) <;> simp

@[simp] theorem encoderPulse_parts (s : State) :
    (encoderPulse s).time.acc = s.time.acc ∧ (encoderPulse s).time.estimate = s.time.estimate ∧
      (encoderPulse s).time.estTicks = s.time.estTicks ∧ (encoderPulse s).time.restored = s.time.restored := by simp [encoderPulse]

@[simp] theorem countTick_parts (s : State) :
    (countTick s).run.state = s.run.state ∧ (countTick s).run.hold = s.run.hold ∧
      (countTick s).run.standby = s.run.standby ∧ (countTick s).time.pos = s.time.pos ∧
      (countTick s).time.acc = s.time.acc ∧ (countTick s).time.estimate = s.time.estimate ∧
      (countTick s).time.estTicks = s.time.estTicks ∧ (countTick s).time.restored = s.time.restored ∧
      (countTick s).time.owed = s.time.owed := by simp [countTick]

@[simp] theorem estimateTick_parts (s : State) :
    (estimateTick s).time.estimate = s.time.estimate ∧ (estimateTick s).time.silence = s.time.silence ∧
      (estimateTick s).time.pulsed = s.time.pulsed ∧ (estimateTick s).time.restored = s.time.restored := by simp [estimateTick]

@[simp] theorem widenAll_parts (s : State) :
    (widenAll s).expect.lines = s.expect.lines := by simp [widenAll]

@[simp] theorem handLost_parts (s : State) :
    (handLost s).report.write = s.report.write ∧ (handLost s).report.head = s.report.head ∧
      (handLost s).report.visible = s.report.visible ∧ (handLost s).report.tail = s.report.tail ∧
      (handLost s).report.outstanding = s.report.outstanding ∧ (handLost s).report.sinceHead = s.report.sinceHead ∧
      (handLost s).report.halted = s.report.halted ∧ (handLost s).report.headWaits = s.report.headWaits := by simp [handLost]

@[simp] theorem enterEstimate_parts (s : State) :
    (enterEstimate s).time.pos = s.time.pos ∧ (enterEstimate s).time.silence = s.time.silence ∧
      (enterEstimate s).time.pulsed = s.time.pulsed ∧ (enterEstimate s).time.owed = s.time.owed ∧
      (enterEstimate s).expect.lines = s.expect.lines := by simp [enterEstimate]

@[simp] theorem declareLoss_parts (s : State) :
    (declareLoss s).fetch.posted = s.fetch.posted ∧ (declareLoss s).fetch.next = s.fetch.next ∧
      (declareLoss s).fetch.inHand = s.fetch.inHand ∧ (declareLoss s).fetch.deferred = s.fetch.deferred ∧
      (declareLoss s).fetch.openPiece = s.fetch.openPiece ∧ (declareLoss s).fetch.counter = s.fetch.counter ∧
      (declareLoss s).fetch.finish = s.fetch.finish ∧ (declareLoss s).run.standby = s.run.standby ∧
      (declareLoss s).time.pos = s.time.pos ∧ (declareLoss s).time.silence = s.time.silence ∧
      (declareLoss s).time.pulsed = s.time.pulsed ∧ (declareLoss s).time.owed = s.time.owed ∧
      (declareLoss s).expect.lines = s.expect.lines ∧ (declareLoss s).plan.counter = s.plan.counter ∧
      (declareLoss s).plan.commitment = s.plan.commitment ∧ (declareLoss s).track.loop = s.track.loop ∧
      (declareLoss s).track.divsel = s.track.divsel ∧ (declareLoss s).track.jogA = s.track.jogA ∧
      (declareLoss s).track.jogB = s.track.jogB ∧ (declareLoss s).image.port = s.image.port ∧
      (declareLoss s).report.write = s.report.write ∧ (declareLoss s).report.head = s.report.head ∧
      (declareLoss s).report.visible = s.report.visible ∧ (declareLoss s).report.tail = s.report.tail ∧
      (declareLoss s).report.outstanding = s.report.outstanding ∧
      (declareLoss s).report.sinceHead = s.report.sinceHead ∧ (declareLoss s).report.halted = s.report.halted ∧
      (declareLoss s).report.headWaits = s.report.headWaits ∧ (declareLoss s).history.dump = s.history.dump := by
  simp only [declareLoss]
  (repeat' split) <;> simp

@[simp] theorem tickWork_parts (s : State) :
    (tickWork s).fetch.posted = s.fetch.posted ∧ (tickWork s).fetch.next = s.fetch.next ∧
      (tickWork s).fetch.inHand = s.fetch.inHand ∧ (tickWork s).fetch.deferred = s.fetch.deferred ∧
      (tickWork s).fetch.openPiece = s.fetch.openPiece ∧ (tickWork s).fetch.counter = s.fetch.counter ∧
      (tickWork s).fetch.finish = s.fetch.finish ∧ (tickWork s).run.standby = s.run.standby ∧
      (tickWork s).expect.lines = s.expect.lines ∧ (tickWork s).plan.counter = s.plan.counter ∧
      (tickWork s).plan.commitment = s.plan.commitment ∧ (tickWork s).track.loop = s.track.loop ∧
      (tickWork s).track.divsel = s.track.divsel ∧ (tickWork s).track.jogA = s.track.jogA ∧
      (tickWork s).track.jogB = s.track.jogB ∧ (tickWork s).image.port = s.image.port ∧
      (tickWork s).report.write = s.report.write ∧ (tickWork s).report.head = s.report.head ∧
      (tickWork s).report.visible = s.report.visible ∧ (tickWork s).report.tail = s.report.tail ∧
      (tickWork s).report.outstanding = s.report.outstanding ∧ (tickWork s).report.sinceHead = s.report.sinceHead ∧
      (tickWork s).report.halted = s.report.halted ∧ (tickWork s).report.headWaits = s.report.headWaits ∧
      (tickWork s).history.dump = s.history.dump := by
  simp only [tickWork]
  (repeat' split) <;> simp

@[simp] theorem setTready_parts (b : Bool) (s : State) :
    (setTready b s).pins.cover = s.pins.cover ∧ (setTready b s).pins.trayrdy = s.pins.trayrdy ∧
      (setTready b s).pins.stkfullA = s.pins.stkfullA ∧ (setTready b s).pins.stkfullB = s.pins.stkfullB ∧
      (setTready b s).pins.sensors = s.pins.sensors := by simp [setTready]

@[simp] theorem setCover_parts (b : Bool) (s : State) :
    (setCover b s).pins.tready = s.pins.tready ∧ (setCover b s).pins.trayrdy = s.pins.trayrdy ∧
      (setCover b s).pins.stkfullA = s.pins.stkfullA ∧ (setCover b s).pins.stkfullB = s.pins.stkfullB ∧
      (setCover b s).pins.sensors = s.pins.sensors := by simp [setCover]

@[simp] theorem treadyUp_parts (s : State) :
    (treadyUp s).run.hold = s.run.hold ∧ (treadyUp s).run.standby = s.run.standby ∧
      (treadyUp s).report.write = s.report.write ∧ (treadyUp s).report.head = s.report.head ∧
      (treadyUp s).report.visible = s.report.visible ∧ (treadyUp s).report.tail = s.report.tail ∧
      (treadyUp s).report.outstanding = s.report.outstanding ∧ (treadyUp s).report.sinceHead = s.report.sinceHead ∧
      (treadyUp s).report.halted = s.report.halted ∧ (treadyUp s).report.headWaits = s.report.headWaits := by
  simp only [treadyUp]
  (repeat' split) <;> simp

@[simp] theorem setTray_parts (t : Fin 4) (b : Bool) (s : State) :
    (setTray t b s).pins.tready = s.pins.tready ∧ (setTray t b s).pins.cover = s.pins.cover ∧
      (setTray t b s).pins.stkfullA = s.pins.stkfullA ∧ (setTray t b s).pins.stkfullB = s.pins.stkfullB ∧
      (setTray t b s).pins.sensors = s.pins.sensors := by simp [setTray]

@[simp] theorem setStacker_parts (k : Stacker) (b : Bool) (s : State) :
    (setStacker k b s).pins.tready = s.pins.tready ∧ (setStacker k b s).pins.cover = s.pins.cover ∧
      (setStacker k b s).pins.trayrdy = s.pins.trayrdy ∧ (setStacker k b s).pins.sensors = s.pins.sensors := by
  simp only [setStacker]
  (repeat' split) <;> simp

@[simp] theorem setSensor_parts (line : Fin 16) (b : Bool) (s : State) :
    (setSensor line b s).pins.tready = s.pins.tready ∧ (setSensor line b s).pins.cover = s.pins.cover ∧
      (setSensor line b s).pins.trayrdy = s.pins.trayrdy ∧ (setSensor line b s).pins.stkfullA = s.pins.stkfullA ∧
      (setSensor line b s).pins.stkfullB = s.pins.stkfullB := by simp [setSensor]

@[simp] theorem setLine_parts (line : Fin 16) (x : Line) (s : State) :
    (setLine line x s).expect.items = s.expect.items := by simp [setLine]

@[simp] theorem completeChange_parts (line : Fin 16) (st : Station) (ch : PendingChange) (s : State) :
    (completeChange line st ch s).pass.fwd = s.pass.fwd ∧ (completeChange line st ch s).pass.own = s.pass.own ∧
      (completeChange line st ch s).pass.wait = s.pass.wait ∧
      (completeChange line st ch s).pass.granted = s.pass.granted ∧
      (completeChange line st ch s).pass.memError = s.pass.memError ∧
      (completeChange line st ch s).fetch.posted = s.fetch.posted ∧
      (completeChange line st ch s).fetch.next = s.fetch.next ∧
      (completeChange line st ch s).fetch.inHand = s.fetch.inHand ∧
      (completeChange line st ch s).fetch.deferred = s.fetch.deferred ∧
      (completeChange line st ch s).fetch.openPiece = s.fetch.openPiece ∧
      (completeChange line st ch s).fetch.counter = s.fetch.counter ∧
      (completeChange line st ch s).fetch.finish = s.fetch.finish ∧
      (completeChange line st ch s).run.standby = s.run.standby ∧
      (completeChange line st ch s).plan.counter = s.plan.counter ∧
      (completeChange line st ch s).track.divsel = s.track.divsel ∧
      (completeChange line st ch s).track.jogA = s.track.jogA ∧
      (completeChange line st ch s).track.jogB = s.track.jogB ∧
      (completeChange line st ch s).image.port = s.image.port ∧
      (completeChange line st ch s).report.write = s.report.write ∧
      (completeChange line st ch s).report.head = s.report.head ∧
      (completeChange line st ch s).report.visible = s.report.visible ∧
      (completeChange line st ch s).report.tail = s.report.tail ∧
      (completeChange line st ch s).report.outstanding = s.report.outstanding ∧
      (completeChange line st ch s).report.sinceHead = s.report.sinceHead ∧
      (completeChange line st ch s).report.halted = s.report.halted ∧
      (completeChange line st ch s).report.headWaits = s.report.headWaits ∧
      (completeChange line st ch s).history.dump = s.history.dump ∧
      (completeChange line st ch s).tally.nextSerial = s.tally.nextSerial ∧
      (completeChange line st ch s).tally.valid = s.tally.valid := by simp [completeChange]

@[simp] theorem openChange_parts (line : Fin 16) (st : Station) (level : Bool) (s : State) :
    (openChange line st level s).pass.fwd = s.pass.fwd ∧ (openChange line st level s).pass.own = s.pass.own ∧
      (openChange line st level s).pass.wait = s.pass.wait ∧
      (openChange line st level s).pass.granted = s.pass.granted ∧
      (openChange line st level s).pass.memError = s.pass.memError ∧
      (openChange line st level s).fetch.posted = s.fetch.posted ∧
      (openChange line st level s).fetch.next = s.fetch.next ∧
      (openChange line st level s).fetch.inHand = s.fetch.inHand ∧
      (openChange line st level s).fetch.deferred = s.fetch.deferred ∧
      (openChange line st level s).fetch.openPiece = s.fetch.openPiece ∧
      (openChange line st level s).fetch.counter = s.fetch.counter ∧
      (openChange line st level s).fetch.finish = s.fetch.finish ∧
      (openChange line st level s).run.standby = s.run.standby ∧
      (openChange line st level s).plan.counter = s.plan.counter ∧
      (openChange line st level s).track.divsel = s.track.divsel ∧
      (openChange line st level s).track.jogA = s.track.jogA ∧
      (openChange line st level s).track.jogB = s.track.jogB ∧
      (openChange line st level s).image.port = s.image.port ∧
      (openChange line st level s).report.write = s.report.write ∧
      (openChange line st level s).report.head = s.report.head ∧
      (openChange line st level s).report.visible = s.report.visible ∧
      (openChange line st level s).report.tail = s.report.tail ∧
      (openChange line st level s).report.outstanding = s.report.outstanding ∧
      (openChange line st level s).report.sinceHead = s.report.sinceHead ∧
      (openChange line st level s).report.halted = s.report.halted ∧
      (openChange line st level s).report.headWaits = s.report.headWaits ∧
      (openChange line st level s).history.dump = s.history.dump ∧
      (openChange line st level s).tally.nextSerial = s.tally.nextSerial ∧
      (openChange line st level s).tally.valid = s.tally.valid := by
  simp only [openChange]
  (repeat' split) <;> simp

@[simp] theorem abandonChange_parts (line : Fin 16) (st : Station) (s : State) :
    (abandonChange line st s).fetch.posted = s.fetch.posted ∧ (abandonChange line st s).fetch.next = s.fetch.next ∧
      (abandonChange line st s).fetch.inHand = s.fetch.inHand ∧
      (abandonChange line st s).fetch.deferred = s.fetch.deferred ∧
      (abandonChange line st s).fetch.openPiece = s.fetch.openPiece ∧
      (abandonChange line st s).fetch.counter = s.fetch.counter ∧
      (abandonChange line st s).fetch.finish = s.fetch.finish ∧
      (abandonChange line st s).run.standby = s.run.standby ∧
      (abandonChange line st s).plan.counter = s.plan.counter ∧
      (abandonChange line st s).plan.commitment = s.plan.commitment ∧
      (abandonChange line st s).track.loop = s.track.loop ∧
      (abandonChange line st s).track.divsel = s.track.divsel ∧
      (abandonChange line st s).track.jogA = s.track.jogA ∧ (abandonChange line st s).track.jogB = s.track.jogB ∧
      (abandonChange line st s).image.port = s.image.port ∧
      (abandonChange line st s).report.write = s.report.write ∧
      (abandonChange line st s).report.head = s.report.head ∧
      (abandonChange line st s).report.visible = s.report.visible ∧
      (abandonChange line st s).report.tail = s.report.tail ∧
      (abandonChange line st s).report.outstanding = s.report.outstanding ∧
      (abandonChange line st s).report.sinceHead = s.report.sinceHead ∧
      (abandonChange line st s).report.halted = s.report.halted ∧
      (abandonChange line st s).report.headWaits = s.report.headWaits ∧
      (abandonChange line st s).history.dump = s.history.dump := by
  simp only [abandonChange]
  (repeat' split) <;> simp

@[simp] theorem rawChange_parts (line : Fin 16) (st : Station) (level : Bool) (s : State) :
    (rawChange line st level s).pass.fwd = s.pass.fwd ∧ (rawChange line st level s).pass.own = s.pass.own ∧
      (rawChange line st level s).pass.wait = s.pass.wait ∧
      (rawChange line st level s).pass.granted = s.pass.granted ∧
      (rawChange line st level s).pass.memError = s.pass.memError ∧
      (rawChange line st level s).fetch.posted = s.fetch.posted ∧
      (rawChange line st level s).fetch.next = s.fetch.next ∧
      (rawChange line st level s).fetch.inHand = s.fetch.inHand ∧
      (rawChange line st level s).fetch.deferred = s.fetch.deferred ∧
      (rawChange line st level s).fetch.openPiece = s.fetch.openPiece ∧
      (rawChange line st level s).fetch.counter = s.fetch.counter ∧
      (rawChange line st level s).fetch.finish = s.fetch.finish ∧
      (rawChange line st level s).run.standby = s.run.standby ∧
      (rawChange line st level s).plan.counter = s.plan.counter ∧
      (rawChange line st level s).track.divsel = s.track.divsel ∧
      (rawChange line st level s).track.jogA = s.track.jogA ∧
      (rawChange line st level s).track.jogB = s.track.jogB ∧
      (rawChange line st level s).image.port = s.image.port ∧
      (rawChange line st level s).report.write = s.report.write ∧
      (rawChange line st level s).report.head = s.report.head ∧
      (rawChange line st level s).report.visible = s.report.visible ∧
      (rawChange line st level s).report.tail = s.report.tail ∧
      (rawChange line st level s).report.outstanding = s.report.outstanding ∧
      (rawChange line st level s).report.sinceHead = s.report.sinceHead ∧
      (rawChange line st level s).report.halted = s.report.halted ∧
      (rawChange line st level s).report.headWaits = s.report.headWaits ∧
      (rawChange line st level s).history.dump = s.history.dump ∧
      (rawChange line st level s).tally.nextSerial = s.tally.nextSerial ∧
      (rawChange line st level s).tally.valid = s.tally.valid := by
  simp only [rawChange]
  (repeat' split) <;> simp

@[simp] theorem fireTop_parts (it : Item) (e : PathEntry) (s : State) :
    (fireTop it e s).run.state = s.run.state ∧ (fireTop it e s).run.standby = s.run.standby ∧
      (fireTop it e s).run.timer = s.run.timer ∧ (fireTop it e s).expect.lines = s.expect.lines ∧
      (fireTop it e s).report.write = s.report.write ∧ (fireTop it e s).report.head = s.report.head ∧
      (fireTop it e s).report.visible = s.report.visible ∧ (fireTop it e s).report.tail = s.report.tail ∧
      (fireTop it e s).report.outstanding = s.report.outstanding ∧
      (fireTop it e s).report.sinceHead = s.report.sinceHead ∧ (fireTop it e s).report.halted = s.report.halted ∧
      (fireTop it e s).report.headWaits = s.report.headWaits ∧ (fireTop it e s).history.dump = s.history.dump := by
  simp only [fireTop]
  (repeat' split) <;> simp

@[simp] theorem fireCheck_parts (it : Item) (e : PathEntry) (s : State) :
    (fireCheck it e s).fetch.posted = s.fetch.posted ∧ (fireCheck it e s).fetch.next = s.fetch.next ∧
      (fireCheck it e s).fetch.inHand = s.fetch.inHand ∧ (fireCheck it e s).fetch.deferred = s.fetch.deferred ∧
      (fireCheck it e s).fetch.openPiece = s.fetch.openPiece ∧ (fireCheck it e s).fetch.counter = s.fetch.counter ∧
      (fireCheck it e s).fetch.finish = s.fetch.finish ∧ (fireCheck it e s).expect.lines = s.expect.lines ∧
      (fireCheck it e s).plan.staged = s.plan.staged ∧ (fireCheck it e s).plan.gapMet = s.plan.gapMet ∧
      (fireCheck it e s).plan.lastRelease = s.plan.lastRelease ∧ (fireCheck it e s).plan.counter = s.plan.counter ∧
      (fireCheck it e s).track.divsel = s.track.divsel ∧ (fireCheck it e s).track.jogA = s.track.jogA ∧
      (fireCheck it e s).track.jogB = s.track.jogB ∧ (fireCheck it e s).track.piece = s.track.piece ∧
      (fireCheck it e s).track.store = s.track.store ∧ (fireCheck it e s).image.port = s.image.port ∧
      (fireCheck it e s).history.frozen = s.history.frozen ∧ (fireCheck it e s).history.dump = s.history.dump := by
  simp only [fireCheck]
  (repeat' split) <;> simp

@[simp] theorem gapOver_parts (s : State) :
    (gapOver s).plan.staged = s.plan.staged ∧ (gapOver s).plan.lastRelease = s.plan.lastRelease ∧
      (gapOver s).plan.lastStacker = s.plan.lastStacker ∧ (gapOver s).plan.counter = s.plan.counter ∧
      (gapOver s).plan.commitment = s.plan.commitment := by simp [gapOver]

end Sys2Proof.Machine
end

