-- ==== Sys2Proof/Laws/State.lean ====
section
/-! SUPPORT. What each plain update writes: one lemma for each field that it changes. The fields that it leaves alone stand
in Laws/Frames.lean and Laws/FrameParts.lean. -/

namespace Sys2Proof.Machine

/-! ### Records, outputs and ports -/

@[simp] theorem handRecord_queue (r : Record) (s : State) :
    (handRecord r s).report.queue = s.report.queue ++ [{ record := r, fixed := false }] := rfl

@[simp] theorem handOption_none (s : State) : handOption none s = s := rfl

@[simp] theorem handOption_some (r : Record) (s : State) : handOption (some r) s = handRecord r s := rfl

@[simp] theorem emit_out (o : Output) (s : State) : (emit o s).out = s.out ++ [o] := rfl

@[simp] theorem begin_out (s : State) : (begin s).out = [] := rfl

@[simp] theorem pushOwn_own (a : OwnAccess) (s : State) : (pushOwn a s).pass.own = s.pass.own ++ [a] := rfl

@[simp] theorem freePort_granted (s : State) : (freePort s).pass.granted = none := rfl

@[simp] theorem forward_fwd (f : Forwarded) (s : State) : (forward f s).pass.fwd = s.pass.fwd ++ [f] := rfl

@[simp] theorem flagError_memError (s : State) : (flagError s).pass.memError = true := rfl

@[simp] theorem unlock_locks (seqs : List Seq) (s : State) :
    (unlock seqs s).pass.locks = s.pass.locks.filter fun k => !seqs.contains k.seq := rfl

/-! ### Expectation list and sensor lines -/

@[simp] theorem addItem_items (it : Item) (s : State) :
    (addItem it s).expect.items = insertItem it s.expect.items := rfl

@[simp] theorem armEvent_items (k : ItemKind) (p : Pos) (s : State) :
    (armEvent k p s).expect.items = insertItem { kind := k, pos := p, early := 0, late := 0 } s.expect.items := rfl

@[simp] theorem withdraw_items (p : Item → Bool) (s : State) :
    (withdraw p s).expect.items = s.expect.items.filter fun i => !p i := rfl

@[simp] theorem dropItem_items (it : Item) (s : State) : (dropItem it s).expect.items = s.expect.items.erase it := rfl

@[simp] theorem setLine_lines (l : Fin 16) (x : Line) (s : State) :
    (setLine l x s).expect.lines = s.expect.lines.set l x := rfl

/-! ### Path, loop and schedule -/

@[simp] theorem updEntry_path (l : Launch) (f : PathEntry → PathEntry) (s : State) :
    (updEntry l f s).track.path = s.track.path.map fun e => if e.launch = l then f e else e := rfl

@[simp] theorem parkEntry_path (l : Launch) (s : State) :
    (parkEntry l s).track.path =
      s.track.path.map fun e => if e.launch = l then { e with phase := .parked } else e := rfl

@[simp] theorem leavePath_path (e : PathEntry) (s : State) :
    (leavePath e s).track.path = s.track.path.filter fun x => x.launch != e.launch := by simp [leavePath]

@[simp] theorem requeue_schedule (xs : List LogicalSheet) (s : State) :
    (requeue xs s).fetch.schedule = xs.foldl (fun q x => insertSheet x q) s.fetch.schedule := rfl

@[simp] theorem gapOver_gapMet (s : State) : (gapOver s).plan.gapMet = true := rfl

/-! ### Watch units -/

@[simp] theorem unit_setUnit (u : UnitId) (x : WatchUnit) (s : State) :
    (setUnit u x s).watch.unit u = x := by cases u <;> rfl

@[simp] theorem setUnit_w0 (x : WatchUnit) (s : State) : (setUnit .w0 x s).watch.w0 = x := rfl

@[simp] theorem setUnit_w1 (x : WatchUnit) (s : State) : (setUnit .w1 x s).watch.w1 = x := rfl

@[simp] theorem setUnit_w0_w1 (x : WatchUnit) (s : State) : (setUnit .w0 x s).watch.w1 = s.watch.w1 := rfl

@[simp] theorem setUnit_w1_w0 (x : WatchUnit) (s : State) : (setUnit .w1 x s).watch.w0 = s.watch.w0 := rfl

/-! ### Stops and clearing -/

@[simp] theorem haltPath_timer (s : State) : (haltPath s).run.timer = none := rfl

@[simp] theorem haltPath_items (s : State) : (haltPath s).expect.items = [] := rfl

@[simp] theorem haltPath_staged (s : State) : (haltPath s).plan.staged = none := rfl

@[simp] theorem haltPath_gapMet (s : State) : (haltPath s).plan.gapMet = true := rfl

@[simp] theorem haltPath_lastRelease (s : State) : (haltPath s).plan.lastRelease = none := rfl

@[simp] theorem haltPath_current (s : State) : (haltPath s).image.current = none := rfl

@[simp] theorem clearPath_path (s : State) : (clearPath s).track.path = [] := rfl

@[simp] theorem clearPath_loop (s : State) : (clearPath s).track.loop = [] := rfl

@[simp] theorem clearPath_commitment (s : State) : (clearPath s).plan.commitment = 0 := rfl

@[simp] theorem clearPath_lastStacker (s : State) : (clearPath s).plan.lastStacker = none := rfl

@[simp] theorem clearPath_items (s : State) : (clearPath s).expect.items = [] := rfl

@[simp] theorem clearPath_current (s : State) : (clearPath s).image.current = none := rfl

@[simp] theorem clearPath_lock (s : State) : (clearPath s).recover.lock = false := rfl

@[simp] theorem leaveEstimate_estimate (s : State) : (leaveEstimate s).time.estimate = false := rfl

@[simp] theorem leaveEstimate_acc (s : State) : (leaveEstimate s).time.acc = 0 := rfl

@[simp] theorem leaveEstimate_silence (s : State) : (leaveEstimate s).time.silence = 0 := rfl

@[simp] theorem leaveEstimate_estTicks (s : State) : (leaveEstimate s).time.estTicks = 0 := rfl

@[simp] theorem leaveEstimate_restored (s : State) : (leaveEstimate s).time.restored = false := rfl

/-! ### Input levels -/

@[simp] theorem setTready_tready (b : Bool) (s : State) : (setTready b s).pins.tready = b := rfl

@[simp] theorem setTready_cover (b : Bool) (s : State) : (setTready b s).pins.cover = s.pins.cover := rfl

@[simp] theorem setCover_cover (b : Bool) (s : State) : (setCover b s).pins.cover = b := rfl

@[simp] theorem setCover_tready (b : Bool) (s : State) : (setCover b s).pins.tready = s.pins.tready := rfl

@[simp] theorem setTray_trayrdy (t : Fin 4) (b : Bool) (s : State) :
    (setTray t b s).pins.trayrdy = s.pins.trayrdy.set t b := rfl

@[simp] theorem setSensor_sensors (l : Fin 16) (b : Bool) (s : State) :
    (setSensor l b s).pins.sensors = s.pins.sensors.set l b := rfl

@[simp] theorem stackerFull_setStacker (k : Stacker) (b : Bool) (s : State) :
    (setStacker k b s).stackerFull k = b := by cases k <;> rfl

end Sys2Proof.Machine
end

