-- ==== Sys2Proof/Laws/Operations.lean ====
section
/-! SUPPORT. What each shared operation can do, said once: the ways an operation can end, with the conditions of each. A
proof cites these and does not unfold the operation. -/

namespace Sys2Proof.Machine

/-! ### Bytes and ranges -/

theorem toLE_length (n v : Nat) : (toLE n v).length = n := by
  induction n generalizing v with
  | zero => rfl
  | succ n ih => simp [toLE, ih]

theorem padTo_length (n : Nat) (bs : List Byte) (h : bs.length ≤ n) : (padTo n bs).length = n := by
  simp [padTo]; omega

/-- Two ranges overlap exactly when they have an address in common. -/
theorem overlaps_iff (a la b lb : Nat) : overlaps a la b lb = true ↔ touches a la b lb := by
  simp only [overlaps, touches, Bool.and_eq_true, decide_eq_true_eq]
  constructor
  · rintro ⟨⟨⟨h1, h2⟩, h3⟩, h4⟩
    exact ⟨max a b, by omega, by omega, by omega, by omega⟩
  · rintro ⟨x, h1, h2, h3, h4⟩
    omega

/-- A stretch of zero bytes (R175). -/
theorem zeroBetween_iff (bs : List Byte) (lo hi : Nat) :
    zeroBetween bs lo hi = true ↔ ∀ i, lo ≤ i → i < hi → byteAt bs i = 0 := by
  simp only [zeroBetween, List.all_eq_true, List.mem_range, beq_iff_eq]
  constructor
  · intro h i h1 h2
    have := h (i - lo) (by omega)
    rwa [Nat.add_sub_cancel' h1] at this
  · intro h k hk
    exact h (lo + k) (by omega) (by omega)

theorem bitOf_eq_testBit (n k : Nat) : bitOf n k = n.testBit k := by
  rw [bitOf, Nat.testBit_eq_decide_div_mod_eq]
  rfl

/-! ### SHEET orders -/

/-- What the reserved fields of a SHEET order are (R175). -/
theorem sheetReservedOk_iff (slot : List Byte) :
    let zero (first after : Nat) := ∀ i, first ≤ i → i < after → byteAt slot i = 0
    let flag (bit : Nat) := (byteAt slot 1).testBit bit = true
    sheetReservedOk slot = true ↔
      byteAt slot 1 < 16 ∧ zero 5 6 ∧ zero 18 20 ∧ zero 52 56 ∧ (¬flag 1 → zero 36 52) ∧ (¬flag 2 → zero 32 36) ∧
        (¬flag 3 → zero 48 52) := by
  simp only [sheetReservedOk, Bool.and_eq_true, Bool.or_eq_true, decide_eq_true_eq, zeroBetween_iff, sheetHasBack,
    sheetFlag, bitOf_eq_testBit, and_assoc, or_iff_not_imp_left]

/-- The TRAY test (R9). -/
theorem trayTest_iff (c : Setup) (slot : List Byte) :
    (match trayOfCode (byteAt slot 3) with | none => false | some t => c.fitted t) = true ↔
      ∃ tray : Fin 4, byteAt slot 3 = tray.val + 1 ∧ (c.station (feedStation tray)).present = true := by
  unfold trayOfCode
  generalize byteAt slot 3 = n
  simp only [Fin.exists_fin_succ]
  by_cases e1 : n = 1
  · subst e1; simp [Setup.fitted]
  by_cases e2 : n = 2
  · subst e2; simp [Setup.fitted]
  by_cases e3 : n = 3
  · subst e3; simp [Setup.fitted]
  by_cases e4 : n = 4
  · subst e4; simp [Setup.fitted]
  simp [e1, e2, e3, e4]

/-- The PLEX test (R9). -/
theorem plexOk_iff (c : Setup) (slot : List Byte) :
    let flag (bit : Nat) := (byteAt slot 1).testBit bit = true
    plexOk c slot = true ↔ byteAt slot 2 = 1 ∧ ¬flag 1 ∨ byteAt slot 2 = 2 ∧ flag 1 ∧ c.loopLength ≠ 0 := by
  unfold plexOk plexOfCode sheetHasBack sheetFlag
  rw [bitOf_eq_testBit]
  by_cases e1 : byteAt slot 2 = 1
  · simp [e1]
  by_cases e2 : byteAt slot 2 = 2
  · simp [e2]
  simp [e1, e2]

/-- The RASTER test of one side (R9). -/
theorem sideOk_iff (base : BitVec 4) (c : Setup) (length : Nat) (r : SideRec) :
    sideOk base c length r = true ↔
      r.base % 64 = 0 ∧ 64 ≤ r.len ∧ r.len ≤ 16777215 ∧ r.base + r.len ≤ 4294967296 ∧
        64 ≤ r.stride ∧ r.stride ≤ 65535 ∧ r.stride % 8 = 0 ∧ 1 ≤ r.image ∧ r.image ≤ length ∧
        (∀ q ∈ ownRegions base c, ¬touches r.base r.len q.1 q.2) ∧
        ∀ m, c.markEnable = true → r.mark = some m → m + (c.markLines - 1) * r.stride + 16 ≤ r.len := by
  simp only [sideOk, inRange, overlapsOwn, Bool.and_eq_true, beq_iff_eq, decide_eq_true_eq, Bool.not_eq_true',
    List.any_eq_false, overlaps_iff, and_assoc]
  cases r.mark with
  | none => simp
  | some m => cases c.markEnable <;> simp

/-! ### The outbound queue -/

/-- Nothing is folded exactly when no open record accepts (R158). -/
theorem updateOpen_eq_none (f : Record → Option Record) (l : List Queued) :
    updateOpen f l = none ↔ ∀ q ∈ l, q.fixed = true ∨ f q.record = none := by
  induction l with
  | nil => simp [updateOpen]
  | cons q qs ih =>
    cases hf : q.fixed <;> cases hr : f q.record <;> simp [updateOpen, hf, hr, ih]

/-- A fold changes the first open record that accepts, in its place (R158). -/
theorem updateOpen_eq_some (f : Record → Option Record) (l m : List Queued) (h : updateOpen f l = some m) :
    ∃ pre q r post, l = pre ++ q :: post ∧ q.fixed = false ∧ f q.record = some r ∧
      m = pre ++ { q with record := r } :: post ∧ ∀ x ∈ pre, x.fixed = true ∨ f x.record = none := by
  induction l generalizing m with
  | nil => simp [updateOpen] at h
  | cons q qs ih =>
    have tail (hn : updateOpen f (q :: qs) = (updateOpen f qs).map (q :: ·)) (hq : q.fixed = true ∨ f q.record = none) :
        ∃ pre x r post, q :: qs = pre ++ x :: post ∧ x.fixed = false ∧ f x.record = some r ∧
          m = pre ++ { x with record := r } :: post ∧ ∀ y ∈ pre, y.fixed = true ∨ f y.record = none := by
      rw [hn, Option.map_eq_some_iff] at h
      obtain ⟨m', hm, rfl⟩ := h
      obtain ⟨pre, x, r, post, rfl, hx, hr, rfl, hp⟩ := ih m' hm
      exact ⟨q :: pre, x, r, post, rfl, hx, hr, rfl, by simpa using ⟨hq, hp⟩⟩
    cases hf : q.fixed with
    | true => exact tail (by simp [updateOpen, hf]) (.inl hf)
    | false =>
      cases hr : f q.record with
      | none => exact tail (by simp [updateOpen, hf, hr]) (.inr hr)
      | some r => exact ⟨[], q, r, qs, rfl, hf, hr, by simpa [updateOpen, hf, hr, eq_comm] using h, by simp⟩

/-- An occurrence folds into an open record or hands a new one (R158). -/
theorem handOrFold_cases (f : Record → Option Record) (new : Record) (s : State) :
    (∃ q, updateOpen f s.report.queue = some q ∧
      handOrFold f new s = { s with report := { s.report with queue := q } }) ∨
    (updateOpen f s.report.queue = none ∧ handOrFold f new s = handRecord new s) := by
  simp only [handOrFold]
  split
  · exact .inl ⟨_, ‹_›, rfl⟩
  · exact .inr ⟨‹_›, rfl⟩

/-- A change of the run state leaves the latches and the start timer (R38, R39). -/
@[simp] theorem changeRun_run (new : RunState) (cause : Option StopCause) (s : State) :
    (changeRun new cause s).run = { s.run with state := new } := by
  simp [changeRun, handState]

/-! ### Lists in order -/

/-- An insertion adds its item and no other. -/
theorem insertItem_perm (it : Item) (l : List Item) : (insertItem it l).Perm (it :: l) := by
  induction l with
  | nil => exact .refl _
  | cons x xs ih =>
    simp only [insertItem]
    split
    · exact .refl _
    · exact (ih.cons x).trans (.swap it x xs)

/-- An insertion adds its sheet and no other (R113). -/
theorem insertSheet_perm (x : LogicalSheet) (l : List LogicalSheet) : (insertSheet x l).Perm (x :: l) := by
  induction l with
  | nil => exact .refl _
  | cons y ys ih =>
    simp only [insertSheet]
    split
    · exact .refl _
    · exact (ih.cons y).trans (.swap x y ys)

/-- A requeue adds its sheets to the schedule queue and loses none (R113). -/
theorem requeue_perm (xs : List LogicalSheet) (s : State) :
    (requeue xs s).fetch.schedule.Perm (xs ++ s.fetch.schedule) := by
  have fold : ∀ (xs l : List LogicalSheet), (xs.foldl (fun q x => insertSheet x q) l).Perm (xs ++ l) := by
    intro xs
    induction xs with
    | nil => intro l; exact .refl _
    | cons x xs ih =>
      intro l
      exact (ih (insertSheet x l)).trans
        (((insertSheet_perm x l).append_left xs).trans (by simp))
  exact fold xs s.fetch.schedule

/-- A slot index joins the posted-slot map (R1). -/
theorem mem_insertSlot (i j : Nat) (l : List Nat) : j ∈ insertSlot i l ↔ j = i ∨ j ∈ l := by
  induction l with
  | nil => simp [insertSlot]
  | cons x xs ih =>
    simp only [insertSlot]
    split
    · simp
    · split
      · subst i; simp
      · simp [ih]; tauto

/-- The newest `n` are at most `n`. -/
theorem newest_length {α : Type} (n : Nat) (l : List α) : (newest n l).length ≤ n := by
  simp only [newest, List.length_drop]; omega

/-! ### The history -/

/-- A history entry is appended as `HistoryUnit.remembering` says (R171). -/
theorem appendHist_eq (kind : HistKind) (station : Option Station) (serial : Option Serial) (seq : Option Seq)
    (launch : Option Launch) (pos : Pos) (s : State) :
    appendHist kind station serial seq launch pos s =
      { s with
        history :=
          s.history.remembering
            { kind := kind, station := station, serial := serial, seq := seq, launch := launch, pos := pos
              runState := s.run.state } } := by
  unfold appendHist HistoryUnit.remembering newest
  by_cases h : s.history.frozen = true <;> simp [h]

/-- A frozen history takes no entry; any other takes it and keeps the 32 most recent (R171). -/
theorem appendHist_cases (kind : HistKind) (station : Option Station) (serial : Option Serial) (seq : Option Seq)
    (launch : Option Launch) (pos : Pos) (s : State) :
    (s.history.frozen = true ∧ appendHist kind station serial seq launch pos s = s) ∨
    (s.history.frozen = false ∧
      appendHist kind station serial seq launch pos s =
        { s with
          history :=
            { s.history with
              entries :=
                newest 32 (s.history.entries ++
                  [{ kind := kind, station := station, serial := serial, seq := seq, launch := launch, pos := pos
                     runState := s.run.state }]) } }) := by
  cases h : s.history.frozen
  · exact .inr ⟨rfl, by simp [appendHist, h]⟩
  · exact .inl ⟨rfl, by simp [appendHist, h]⟩

/-! ### Watch units -/

/-- An item that no unit counts changes nothing (R165, R169). -/
theorem offer_quiet (item : HitItem) (s : State) (h0 : unitMatches s.watch.w0 item = false)
    (h1 : unitMatches s.watch.w1 item = false) : offer item s = s := by simp [offer, h0, h1]

/-- A match lowers a remaining count above 0 and fires the unit at 0 (R169). -/
theorem countMatch_cases (u : UnitId) (item : HitItem) (s : State) :
    ((s.watch.unit u).program = none ∧ countMatch u item s = s) ∨
    ∃ p, (s.watch.unit u).program = some p ∧
      (0 < (s.watch.unit u).remaining ∧
        countMatch u item s =
          setUnit u { s.watch.unit u with remaining := (s.watch.unit u).remaining - 1 } s ∨
       (s.watch.unit u).remaining = 0 ∧ countMatch u item s = fire u p item s) := by
  cases hp : (s.watch.unit u).program with
  | none => exact .inl ⟨rfl, by simp [countMatch, hp]⟩
  | some p =>
    refine .inr ⟨p, rfl, ?_⟩
    rcases Nat.eq_zero_or_pos (s.watch.unit u).remaining with hz | hz
    · exact .inr ⟨hz, by simp [countMatch, hp, hz]⟩
    · exact .inl ⟨hz, by simp [countMatch, hp, hz]⟩

/-! ### Detaching and stops -/

/-- A detached entry is left as it is (R112). -/
theorem detach_detached (r : SpoilReason) (e : PathEntry) (s : State) (h : e.attached = false) : detach r e s = s := by
  simp [detach, h]

/-- A last stacker release that names the entry becomes none (R62). -/
theorem forgetStacker_eq (l : Launch) (s : State) :
    forgetStacker l s = { s with plan := { s.plan with lastStacker := s.plan.lastStacker.filter fun p => p.1 != l } } := by
  obtain ⟨_, _, _, _, _, _, ⟨_, _, _, last, _, _⟩, _, _, _, _, _, _, _, _, _, _⟩ := s
  cases last with
  | none => rfl
  | some p => by_cases hp : p.1 = l <;> simp [forgetStacker, hp, Option.filter]

/-- The current side ends when it is of this entry, with its underrun check (R105). -/
theorem endSide_eq (l : Launch) (s : State) :
    endSide l s =
      { s with
        expect :=
          { s.expect with
            items := s.expect.items.filter fun i => !(i.kind == .check l && s.image.current.any fun c => c.launch == l) }
        image := { s.image with current := s.image.current.filter fun c => c.launch != l } } := by
  obtain ⟨_, _, _, _, _, _, _, _, ⟨current, _⟩, _, _, _, _, _, _, _, _⟩ := s
  cases current with
  | none => simp [endSide]
  | some c =>
    by_cases hc : c.launch = l
    · simp [endSide, withdraw, hc, Option.filter]
    · have hb : (c.launch == l) = false := by simpa using hc
      simp [endSide, hc, hb, Option.filter]

/-- A member leaves the loop FIFO at its place, and U falls (R66). -/
theorem leaveLoop_eq (l : Launch) (n : Nat) (s : State) :
    leaveLoop l n s =
      { s with
        track := { s.track with loop := s.track.loop.erase l }
        plan :=
          { s.plan with
            commitment := s.plan.commitment - if l ∈ s.track.loop then n + s.cfg.loopGap else 0 } } := by
  unfold leaveLoop
  by_cases h : l ∈ s.track.loop <;> simp [h, List.erase_of_not_mem]

/-- Detaching no entry changes nothing. -/
theorem withDetached_nil (r : PathEntry → SpoilReason) (s : State) : s.withDetached [] r = s := by
  have h {α : Type} (o : Option α) : o.filter (fun _ => true) = o := by cases o <;> rfl
  simp [State.withDetached, h]

/-- One more attached entry is detached (R112). -/
theorem detach_withDetached (es : List PathEntry) (e : PathEntry) (r : PathEntry → SpoilReason) (s : State)
    (hd : s.launchesDistinct) (he : e ∈ s.track.path) (ha : e.attached = true)
    (hes : ∀ x ∈ es, x ∈ s.track.path ∧ x ≠ e) :
    detach (r e) e (s.withDetached es r) = s.withDetached (es ++ [e]) r := by
  have hl : ∀ x ∈ s.track.path, x.launch = e.launch → x = e := by
    intro x hx h
    exact List.inj_on_of_nodup_map hd hx he h
  have hne : ∀ x ∈ es, x.launch ≠ e.launch := fun x hx h => (hes x hx).2 (hl x (hes x hx).1 h)
  have hpath : ((s.withDetached es r).track.path.map fun x => if x.launch = e.launch then PathEntry.detachedAs (r e) x else x)
      = (s.withDetached (es ++ [e]) r).track.path := by
    simp only [State.withDetached, List.map_map]
    apply List.map_congr_left
    intro x hx
    by_cases h : x = e
    · subst h
      have : x ∉ es := fun hx => (hes x hx).2 rfl
      simp [this, PathEntry.detachedAs]
    · have h' : x.launch ≠ e.launch := fun k => h (hl x hx k)
      by_cases hx' : x ∈ es <;> simp [hx', h, h']
  have hloop : (s.withDetached es r).track.loop.contains e.launch = s.track.loop.contains e.launch := by
    simp only [State.withDetached]
    generalize hL : (es.filter fun e => e.route.isNone && s.track.loop.contains e.launch) = L
    have hLe : ∀ x ∈ L, x.launch ≠ e.launch := by
      intro x hx; subst hL; exact hne x (List.mem_filter.mp hx).1
    clear hL
    generalize s.track.loop = l
    induction L generalizing l with
    | nil => rfl
    | cons a L ih =>
      simp only [List.foldl_cons]
      rw [ih (fun x hx => hLe x (List.mem_cons_of_mem _ hx))]
      have := hLe a (List.mem_cons_self)
      rw [Bool.eq_iff_iff]; simp [List.mem_erase_of_ne (Ne.symm this)]
  have himg : ((s.withDetached es r).image.current.any fun c => c.launch == e.launch) =
      s.image.current.any fun c => c.launch == e.launch := by
    simp only [State.withDetached]
    cases h : s.image.current with
    | none => rfl
    | some c =>
      by_cases hc : c.launch = e.launch
      · have : es.all (fun e => c.launch != e.launch) = true := by
          simp only [List.all_eq_true, bne_iff_ne]
          intro x hx; rw [hc]; exact (hne x hx).symm
        simp [Option.filter, this]
      · simp only [Option.filter]; split <;> simp [hc]
  simp only [detach, ha, if_true]
  have e0 : (if e.route.isNone = true then
        leaveLoop e.launch e.ident.length (updEntry e.launch (PathEntry.detachedAs (r e)) (s.withDetached es r))
      else updEntry e.launch (PathEntry.detachedAs (r e)) (s.withDetached es r)) =
      { s.withDetached es r with
        track := { (s.withDetached es r).track with
          path := (s.withDetached (es ++ [e]) r).track.path
          loop := (s.withDetached (es ++ [e]) r).track.loop }
        plan := { (s.withDetached es r).plan with commitment := (s.withDetached (es ++ [e]) r).plan.commitment } } := by
    by_cases hr : e.route.isNone = true
    · rw [if_pos hr, leaveLoop_eq]
      have hm : e.launch ∈ (s.withDetached es r).track.loop ↔ e.launch ∈ s.track.loop := by
        rw [Bool.eq_iff_iff] at hloop; simpa using hloop
      simp only [updEntry, hpath, hm]
      by_cases hc : e.launch ∈ s.track.loop
      · simp [State.withDetached, List.filter_append, hr, hc, Nat.sub_sub, State.cfg]
      · have h2 : e.launch ∉ (s.withDetached es r).track.loop := by rwa [hm]
        rw [List.erase_of_not_mem h2]
        simp [State.withDetached, List.filter_append, hr, hc]
    · rw [if_neg hr]
      simp only [updEntry, hpath]
      simp [State.withDetached, List.filter_append, hr]
  rw [e0, forgetStacker_eq, endSide_eq]
  simp only [withdraw, himg]
  simp [State.withDetached, List.filter_append, Option.filter_filter, List.filter_filter]

  congr 1
  funext i
  simp only [bne]
  ac_rfl

/-- Detaching attached entries one by one leaves what `State.withDetached` says (R112). -/
theorem foldl_detach (es ds : List PathEntry) (r : PathEntry → SpoilReason) (s : State) (hd : s.launchesDistinct)
    (hp : ∀ e ∈ es, e ∈ s.track.path ∧ e.attached = true) (hn : (ds ++ es).Nodup) (hds : ∀ e ∈ ds, e ∈ s.track.path) :
    es.foldl (fun t e => detach (r e) e t) (s.withDetached ds r) = s.withDetached (ds ++ es) r := by
  induction es generalizing ds with
  | nil => simp
  | cons e es ih =>
    obtain ⟨he, ha⟩ := hp e List.mem_cons_self
    have hne : e ∉ ds := by
      intro h; exact (List.nodup_append.mp hn).2.2 e h e List.mem_cons_self rfl
    simp only [List.foldl_cons]
    rw [detach_withDetached ds e r s hd he ha (fun x hx => ⟨hds x hx, fun h => hne (h ▸ hx)⟩)]
    rw [ih (ds ++ [e]) (fun x hx => hp x (List.mem_cons_of_mem _ hx)) (by simpa using hn)
      (by simpa [or_imp, forall_and, he] using hds)]
    simp

/-- Detaching several entries keeps what detaching one keeps. -/
theorem detachAll_keeps {β : Type} (π : State → β) (r : SpoilReason)
    (h : ∀ (t : State) (e : PathEntry), π (detach r e t) = π t) (es : List PathEntry) (s : State) :
    π (detachAll r es s) = π s := foldl_keeps _ π (fun t e => h t e) es s

/-- A stop cause is nothing in a state in which it does not stop; it halts the path in one in which it does, and the
recovery unit works unless the snapshot is locked (R43, R111, R116). -/
theorem stop_cases (cause : StopCause) (station : Option Station) (pos : Pos) (launch : Option Launch)
    (serial : Option Serial) (s : State) :
    (stopsIn cause s.run.state = false ∧ stop cause station pos launch serial s = s) ∨
    (stopsIn cause s.run.state = true ∧ s.recover.lock = true ∧
      stop cause station pos launch serial s = haltPath (changeRun .stopped (some cause) s)) ∨
    (stopsIn cause s.run.state = true ∧ s.recover.lock = false ∧
      stop cause station pos launch serial s =
        stopWork
          { cause := cause, station := station, pos := pos, serial := serial, launch := launch
            former := s.run.state }
          (haltPath (changeRun .stopped (some cause) s))) := by
  cases hs : stopsIn cause s.run.state
  · exact .inl ⟨rfl, by simp [stop, hs]⟩
  · cases hl : s.recover.lock
    · exact .inr (.inr ⟨rfl, rfl, by simp [stop, hs, hl]⟩)
    · exact .inr (.inl ⟨rfl, rfl, by simp [stop, hs, hl]⟩)

/-- A stop keeps what its halt of the path and its recovery work keep. -/
theorem stop_keeps {β : Type} (π : State → β) (hh : ∀ (t : State) (c : StopCause),
    π (haltPath (changeRun .stopped (some c) t)) = π t) (hw : ∀ (t : State) (n : Snapshot), π (stopWork n t) = π t)
    (cause : StopCause) (station : Option Station) (pos : Pos) (launch : Option Launch) (serial : Option Serial)
    (s : State) : π (stop cause station pos launch serial s) = π s := by
  rcases stop_cases cause station pos launch serial s with ⟨_, h⟩ | ⟨_, _, h⟩ | ⟨_, _, h⟩ <;> simp [h, hh, hw]

/-! ### Run state -/

/-- The drain ends in a stop, or nothing happens (R52). -/
theorem drainStep_cases (s : State) :
    (s.run.state = .draining ∧ s.time.estimate = true ∧ s.track.path = [] ∧
      drainStep s = stopAtP .encoderDrained s) ∨ drainStep s = s := by
  by_cases h : s.run.state = .draining ∧ s.time.estimate = true ∧ s.track.path = []
  · exact .inl ⟨h.1, h.2.1, h.2.2, by simp [drainStep, h]⟩
  · exact .inr (by simp only [drainStep, if_neg h])

/-- The transport is started from IDLE alone, when the start condition holds (R41). -/
theorem startStep_cases (s : State) :
    (s.run.state = .idle ∧ s.startCondition = true ∧ startStep s = enterStarting s) ∨ startStep s = s := by
  by_cases h : s.run.state = .idle ∧ s.startCondition = true
  · exact .inl ⟨h.1, h.2, by simp [startStep, h]⟩
  · exact .inr (by simp only [startStep, if_neg h])

/-- Entry into STARTING ends there with TREADY low and goes on with TREADY high (R41, R42). -/
theorem enterStarting_run (s : State) :
    (enterStarting s).run =
      if s.pins.tready then
        { s.run with state := if s.run.standby then .draining else .running, timer := none }
      else { s.run with state := .starting, timer := some 0 } := by
  cases h : s.pins.tready <;> simp [enterStarting, atSpeed, h]

/-- The idle condition changes the run state from RUNNING or DRAINING to IDLE, or leaves the run unit alone (R45). -/
theorem idleStep_run (s : State) :
    (idleStep s).run = s.run ∨ (s.moving = true ∧ (idleStep s).run = { s.run with state := .idle }) := by
  simp only [idleStep]
  split
  · rename_i h
    have hm : s.moving = true := by
      cases hm : s.moving
      · simp [State.idleCondition, hm] at h
      · rfl
    split
    · exact .inl rfl
    · split
      · exact .inr ⟨hm, by simp [fallIdle]⟩
      · exact .inl (by simp [armEvent])
  · exact .inl (by simp)

/-! ### The planner -/

/-- A release, or nothing (R62). -/
theorem tryRelease_cases (s : State) :
    (∃ l e, s.plan.staged = some l ∧ s.entry? l = some e ∧ s.releasable e = true ∧ tryRelease s = release e s) ∨
      tryRelease s = s := by
  cases hb : s.plan.staged.bind s.entry? with
  | none => exact .inr (by simp only [tryRelease, hb])
  | some e =>
    obtain ⟨l, hl, he⟩ := Option.bind_eq_some_iff.mp hb
    cases hr : s.releasable e
    · exact .inr (by simp [tryRelease, hb, hr])
    · exact .inl ⟨l, e, hl, he, hr, by simp [tryRelease, hb, hr]⟩

/-- A pick of the schedule head, a re-feed of the loop's head, or nothing (R56, R59). -/
theorem tryStage_cases (s : State) :
    (∃ h, s.mayLaunch = true ∧ s.fetch.schedule.head? = some h ∧ s.pickCase h = true ∧ tryStage s = pick h s) ∨
    (∃ l e, s.mayLaunch = true ∧ s.track.loop.head? = some l ∧ s.entry? l = some e ∧ s.refeedReady e = true ∧
      tryStage s = refeed e s) ∨ tryStage s = s := by
  cases hm : s.mayLaunch
  · exact .inr (.inr (by simp [tryStage, hm]))
  · cases hc : s.refeedCase s.fetch.schedule.head?
    · cases hh : s.fetch.schedule.head? with
      | none => exact .inr (.inr (by simp [tryStage, State.decision, hm, hh, hh ▸ hc]))
      | some h =>
        cases hp : s.pickCase h
        · exact .inr (.inr (by simp [tryStage, State.decision, hm, hh, hh ▸ hc, hp]))
        · exact .inl ⟨h, rfl, rfl, hp, by simp [tryStage, State.decision, hm, hh, hh ▸ hc, hp]⟩
    · cases hb : s.track.loop.head?.bind s.entry? with
      | none => exact .inr (.inr (by simp [tryStage, State.decision, hm, hc, hb]))
      | some e =>
        obtain ⟨l, hl, he⟩ := Option.bind_eq_some_iff.mp hb
        cases hr : s.refeedReady e
        · exact .inr (.inr (by simp [tryStage, State.decision, hm, hc, hb, hr]))
        · exact .inr (.inl ⟨l, e, rfl, hl, he, hr, by simp [tryStage, State.decision, hm, hc, hb, hr]⟩)

/-! ### Edges -/

/-- An expiry is a path fault of its entry; only an edge expectation expires (R23, R25, R36). -/
theorem expireItem_cases (it : Item) (s : State) :
    (∃ l st e, it.kind = .edge l st e ∧
      expireItem it s =
        pathFault (match e with | .le => .late | .te => .long) st it.due l (dropItem it s)) ∨ expireItem it s = s := by
  cases h : it.kind
  case edge l st e => exact .inl ⟨l, st, e, rfl, by cases e <;> simp only [expireItem, h]⟩
  all_goals exact .inr (by simp only [expireItem, h])

/-- A completed edge is discarded, is STRAY, finds no entry any more, or is matched (R30 to R32). -/
theorem offerEdge_cases (e : Edge) (st : Station) (q : Pos) (s : State) :
    offerEdge e st q s = s ∨ (e = .le ∧ offerEdge e st q s = stop .stray (some st) q none none s) ∨
      (∃ it ∈ s.expect.items, offerEdge e st q s = dropItem it s) ∨
      ∃ it x, it ∈ s.expect.items ∧ s.moving = true ∧ it.kind.launch?.bind s.entry? = some x ∧
        offerEdge e st q s = matchEdge e st it x q s := by
  have first_mem : ∀ (l : List Item) (it : Item), firstClaimant l = some it → it ∈ l := by
    intro l
    induction l with
    | nil => simp [firstClaimant]
    | cons x xs ih =>
      intro it h
      simp only [firstClaimant] at h
      split at h
      · simp_all
      · split at h
        · exact List.mem_cons_of_mem _ (ih _ (by simp_all))
        · simp_all
  cases hm : s.moving
  · exact .inl (by simp [offerEdge, hm])
  · cases hc : firstClaimant (s.expect.items.filter (Item.awaits st e)) with
    | none =>
      cases e
      · exact .inr (.inl ⟨rfl, by simp [offerEdge, hm, hc]⟩)
      · exact .inl (by simp [offerEdge, hm, hc])
    | some it =>
      have hi : it ∈ s.expect.items := (List.mem_filter.mp (first_mem _ _ hc)).1
      cases hx : it.kind.launch?.bind s.entry? with
      | none => exact .inr (.inr (.inl ⟨it, hi, by simp [offerEdge, hm, hc, hx]⟩))
      | some x => exact .inr (.inr (.inr ⟨it, x, hi, rfl, hx, by simp [offerEdge, hm, hc, hx]⟩))

/-! ### Deliveries -/

/-- The retained store takes at most its 32nd sheet (R89, R92). -/
theorem disposal_store_length (mode : RecoveryMode) (committed : Bool) (store : List LogicalSheet) (x : LogicalSheet)
    (h : store.length ≤ 32) : (disposal mode committed store x).store.length ≤ 32 := by
  simp only [disposal]
  split
  · exact h
  · split
    · simp
    · split
      · exact h
      · split
        · simp; omega
        · simp

/-! ### The port -/

/-- An access is taken with room in the forward queue, and waits without (R131). -/
theorem atPort_cases (a : Access) (s : State) :
    (s.pass.fwd.length < 8 ∧ atPort a s = takeAccess a (begin s)) ∨
      (8 ≤ s.pass.fwd.length ∧ atPort a s = emit (.busWaits a.tag) (begin s)) := by
  by_cases h : s.pass.fwd.length < 8
  · exact .inl ⟨h, by simp [atPort, State.fwdRoom, h]⟩
  · exact .inr ⟨by omega, by simp [atPort, State.fwdRoom, h]⟩

/-! ### Orders -/

/-- An order of a kind is handled when its slot has returned POSTED with that kind; otherwise it does not occur. -/
theorem onOrder_cases (k : Nat) (slot : List Byte) (body : State → State) (s : State) :
    (s.slotReturns = true ∧ slotPosted slot = true ∧ slotKind slot = k ∧
      onOrder k slot body s = settle (body (freePort (begin s)))) ∨ onOrder k slot body s = s := by
  by_cases h : s.slotReturns && slotPosted slot && slotKind slot == k
  · refine .inl ?_
    simp only [Bool.and_eq_true, beq_iff_eq] at h
    exact ⟨h.1.1, h.1.2, h.2, by simp [onOrder, h]⟩
  · exact .inr (by simp only [onOrder, if_neg h])

/-- An order keeps what its handling, the end of the event and its beginning keep. -/
theorem onOrder_keeps {β : Type} (π : State → β) (k : Nat) (slot : List Byte) (body : State → State) (s : State)
    (hs : ∀ t, π (settle t) = π t) (hf : π (freePort (begin s)) = π s) (hb : ∀ t, π (body t) = π t) :
    π (onOrder k slot body s) = π s := by
  rcases onOrder_cases k slot body s with ⟨_, _, _, h⟩ | h <;> simp [h, hs, hb, hf]

/-- A control order is rejected as disabled, rejected for a field, or answered with its owning block's result (R7,
R18). -/
theorem controlOrder_cases (wf : Bool) (work : State → State × ControlResult) (slot : List Byte) (s : State) :
    (kindEnabled s.cfg (slotKind slot) = false ∧
      controlOrder wf work slot s = rejectOrder .kindDisabled slot s) ∨
    (kindEnabled s.cfg (slotKind slot) = true ∧ wf = false ∧
      controlOrder wf work slot s = rejectOrder .field slot s) ∨
    (kindEnabled s.cfg (slotKind slot) = true ∧ wf = true ∧
      controlOrder wf work slot s = answerControl slot (work s).2 (decideRun (work s).1)) := by
  cases he : kindEnabled s.cfg (slotKind slot) <;> cases wf <;> simp [controlOrder, he]

/-- A control order keeps what rejecting, answering, its work and the conditions of run-state control keep. -/
theorem controlOrder_keeps {β : Type} (π : State → β) (wf : Bool) (work : State → State × ControlResult)
    (slot : List Byte) (s : State) (hr : ∀ r t, π (rejectOrder r slot t) = π t)
    (ha : ∀ r t, π (answerControl slot r t) = π t) (hd : ∀ t, π (decideRun t) = π t)
    (hw : ∀ t, π (work t).1 = π t) : π (controlOrder wf work slot s) = π s := by
  rcases controlOrder_cases wf work slot s with ⟨_, h⟩ | ⟨_, _, h⟩ | ⟨_, _, h⟩ <;> simp [h, hr, ha, hd, hw]

/-- A slot is finished at once with room in the own-access FIFO, and waits without (R5, R141). -/
theorem finishSlot_cases (f : Finish) (s : State) :
    (s.pass.own.length < 16 ∧ finishSlot f s = finishNow f s) ∨
      (16 ≤ s.pass.own.length ∧ finishSlot f s = { s with fetch := { s.fetch with finish := some f } }) := by
  by_cases h : s.pass.own.length < 16
  · exact .inl ⟨h, by simp [finishSlot, State.ownRoom, h]⟩
  · exact .inr ⟨by omega, by simp [finishSlot, State.ownRoom, h]⟩

/-! ### The controller's own accesses -/

/-- A dump write that has completed ends the dump, or leaves it in progress (R172, R173). -/
theorem noteDumpWrite_cases (d : Dump) (s : State) :
    (d.over = true ∧ noteDumpWrite d s = endDump d s) ∨
      (d.over = false ∧ noteDumpWrite d s = { s with history := { s.history with dump := some d } }) := by
  cases h : d.over <;> simp [noteDumpWrite, h]

/-- A fetch goes on, ends in DECIDING, or ends in the refusal MEMORY (R147). -/
theorem endFetch_cases (s : State) :
    (s.setup.done < 64 ∧ endFetch s = s) ∨
    (64 ≤ s.setup.done ∧ s.setup.failed = false ∧
      endFetch s = { s with setup := { s.setup with fetch := .deciding } }) ∨
    (64 ≤ s.setup.done ∧ s.setup.failed = true ∧
      endFetch s = handRefusal .memory 0 { s with setup := { s.setup with fetch := .idle, copy := [] } }) := by
  by_cases h : s.setup.done < 64
  · exact .inl ⟨h, by simp [endFetch, h]⟩
  · cases hf : s.setup.failed
    · exact .inr (.inl ⟨by omega, rfl, by simp [endFetch, h, hf]⟩)
    · exact .inr (.inr ⟨by omega, rfl, by simp [endFetch, h, hf]⟩)

/-- An own access that fails sets the flag, has its block's effect, and stops the controller unless it is a read of a
setup fetch (R143). -/
theorem ownError_cases (k : OwnKind) (s : State) :
    (k.isSetupRead = true ∧ ownError k s = blockError k (flagError s)) ∨
      (k.isSetupRead = false ∧ ownError k s = stopAtP .memory (blockError k (flagError s))) := by
  cases h : k.isSetupRead <;> simp [ownError, h]

/-! ### Records beside the watch units' -/

/-- A fold into an open record finds it: the first open one that accepts (R158). -/
theorem updateOpen_append (f : Record → Option Record) (qs rs : List Queued) (x y : Record)
    (h : ∀ q ∈ qs, q.fixed = true ∨ f q.record = none) (hx : f x = some y) :
    updateOpen f (qs ++ { record := x, fixed := false } :: rs) = some (qs ++ { record := y, fixed := false } :: rs) := by
  induction qs with
  | nil => simp [updateOpen, hx]
  | cons q qs ih =>
    have hqs := ih fun z hz => h z (by simp [hz])
    rcases h q (by simp) with hq | hq <;> simp [updateOpen, hq, hqs]

/-- A folded hit changes no record but WATCH_HIT (R170). -/
theorem updateOpen_foldHit (u : UnitId) (l m : List Queued) (h : updateOpen (foldHit u) l = some m) :
    withoutHits m = withoutHits l := by
  obtain ⟨pre, q, r, post, rfl, -, hr, rfl, -⟩ := updateOpen_eq_some _ _ _ h
  cases hk : q.record <;> simp [foldHit, hk] at hr
  obtain ⟨-, rfl⟩ := hr
  simp [withoutHits, hk]

/-- A hit hands no record but WATCH_HIT (R170). -/
@[simp] theorem makeHit_withoutHits (u : UnitId) (part : HitParticulars) (s : State) :
    withoutHits (makeHit u part s).report.queue = withoutHits s.report.queue := by
  have set (x : WatchUnit) : (setUnit u x s).report = s.report := by cases u <;> rfl
  simp only [makeHit, handOrFold]
  split
  · rename_i q hq
    rw [set] at hq
    simpa [set] using updateOpen_foldHit u _ q hq
  · simp [handRecord, withoutHits]

/-- A firing hands no record but WATCH_HIT (R170). -/
@[simp] theorem fire_withoutHits (u : UnitId) (p : WatchProgram) (item : HitItem) (s : State) :
    withoutHits (fire u p item s).report.queue = withoutHits s.report.queue := by
  simp only [fire]
  split <;> simp

/-- An offer hands no record but WATCH_HIT (R169, R170). -/
@[simp] theorem offer_withoutHits (item : HitItem) (s : State) :
    withoutHits (offer item s).report.queue = withoutHits s.report.queue := by
  have count (u : UnitId) (t : State) :
      withoutHits (countMatch u item t).report.queue = withoutHits t.report.queue := by
    rcases countMatch_cases u item t with ⟨-, h⟩ | ⟨p, -, ⟨-, h⟩ | ⟨-, h⟩⟩ <;> rw [h]
    · cases u <;> rfl
    · exact fire_withoutHits u p item t
  simp only [offer]
  split <;> split <;> simp [count]

/-- A sheet event hands no record but WATCH_HIT (R96, R170). -/
@[simp] theorem sheetEvent_withoutHits (kind : SheetEventKind) (hist : HistKind) (station : Option Station)
    (e : PathEntry) (pos : Pos) (s : State) :
    withoutHits (sheetEvent kind hist station e pos s).report.queue = withoutHits s.report.queue := by
  simp [sheetEvent]

/-- The report of an entry hands its SHEET_SPOILED record and, beside WATCH_HIT records, no other (R95, R96). -/
theorem reportSpoiled_withoutHits (e : PathEntry) (reason : SpoilReason) (place : Option Station) (pos : Pos)
    (s : State) :
    withoutHits (reportSpoiled e reason place pos s).report.queue =
      withoutHits s.report.queue ++ [{ record := spoilRecord e reason place pos, fixed := false }] := by
  rw [reportSpoiled, sheetEvent_withoutHits]
  simp [handRecord, withoutHits, spoilRecord]

/-! ### Items armed, entries that leave -/

/-- An insertion puts its item between two parts of the list. -/
theorem insertItem_split (it : Item) (l : List Item) :
    ∃ pre post, insertItem it l = pre ++ it :: post ∧ l = pre ++ post := by
  induction l with
  | nil => exact ⟨[], [], rfl, rfl⟩
  | cons x xs ih =>
    simp only [insertItem]
    split
    · exact ⟨[], x :: xs, rfl, rfl⟩
    · obtain ⟨pre, post, h1, h2⟩ := ih
      exact ⟨x :: pre, post, by simp [h1], by simp [h2]⟩

/-- A leg's LE that is armed joins the list, or expires at once when its expiry position is reached and not held
(R24, R35). -/
theorem armLegLE_cases (u : State) (l : Launch) (st : Station) (p : Pos) (i : Item)
    (hi : i =
      { kind := .edge l st .le, pos := p, early := (u.cfg.station st).early
        late := if u.time.estimate then widened (u.cfg.station st).late else (u.cfg.station st).late })
    (h : ∀ j ∈ u.expect.items, j.kind ≠ .edge l st .le) :
    (u.itemDue i = false ∧ armLegLE l st p u = addItem i u) ∨
      (u.itemDue i = true ∧
        armLegLE l st p u = stop .late (some st) i.due (some l) ((u.entry? l).bind PathEntry.serial) u) := by
  obtain ⟨pre, post, h1, h2⟩ := insertItem_split i u.expect.items
  have hk : i.kind = .edge l st .le := by rw [hi]
  have ha : armLE l st p u = addItem i u := by rw [hi]; rfl
  have hpre : ∀ j ∈ pre, j.kind ≠ .edge l st .le := fun j hj => h j (by rw [h2]; simp [hj])
  have hpost : ∀ j ∈ post, j.kind ≠ .edge l st .le := fun j hj => h j (by rw [h2]; simp [hj])
  have same (j : Item) : (addItem i u).itemDue j = u.itemDue j := rfl
  have items : (addItem i u).expect.items = pre ++ i :: post := h1
  simp only [armLegLE, ha, items, same]
  cases hd : u.itemDue i
  · refine .inl ⟨rfl, ?_⟩
    rw [List.find?_eq_none.2]
    intro j hj hc
    simp only [Bool.and_eq_true, beq_iff_eq] at hc
    simp only [List.mem_append, List.mem_cons] at hj
    rcases hj with hj | rfl | hj
    · exact hpre j hj hc.1
    · rw [hd] at hc; exact absurd hc.2 (by decide)
    · exact hpost j hj hc.1
  · refine .inr ⟨rfl, ?_⟩
    have hf : (pre ++ i :: post).find? (fun j => j.kind == .edge l st .le && u.itemDue j) = some i := by
      rw [List.find?_append, List.find?_eq_none.2]
      · simp [hk, hd]
      · intro j hj hc
        simp only [Bool.and_eq_true, beq_iff_eq] at hc
        exact hpre j hj hc.1
    have her : (insertItem i u.expect.items).erase i = u.expect.items := by
      rw [h1, List.erase_append_right _ fun hm => hpre i hm hk, h2]; simp
    simp only [hf, expireItem, hk, pathFault, dropItem, addItem, her]

/-- An entry that leaves the path takes its place in the table and the loop with it, and its items (R75). -/
theorem leavePath_eq (e : PathEntry) (s : State) :
    (leavePath e s).track =
        { s.track with path := s.track.path.filter (·.launch != e.launch), loop := s.track.loop.erase e.launch } ∧
      (leavePath e s).expect = { s.expect with items := s.expect.items.filter (·.kind.launch? != some e.launch) } := by
  have check (is : List Item) :
      (is.filter fun i => !(i.kind.launch? == some e.launch)).filter (fun i => !(i.kind == .check e.launch)) =
        is.filter fun i => !(i.kind.launch? == some e.launch) := by
    rw [List.filter_filter]
    refine List.filter_congr fun i _ => ?_
    cases hk : i.kind <;> simp [ItemKind.launch?]
  by_cases hl : e.launch ∈ s.track.loop
  · constructor <;>
      simp only [leavePath, forgetStacker, endSide, leaveLoop, withdraw, hl, List.contains_iff_mem, if_true] <;>
      (repeat' split) <;> simp_all [bne]
  · constructor <;>
      simp only [leavePath, forgetStacker, endSide, leaveLoop, withdraw, hl, List.contains_iff_mem, if_false] <;>
      (repeat' split) <;> simp_all [bne, List.erase_of_not_mem hl]

end Sys2Proof.Machine
end

