-- ==== Sys2Proof/WellFormed.lean ====
section
/-! DEFINITION. Which commands have operands that the spec admits: the length of a bus access, the size of what a
read returned, the kind byte that makes a slot read this command and not another, and the stations that have a
trailing-edge expectation. -/

namespace Sys2Proof

/-- A bus access has 1 to 64 bytes (08_pass_through, Forwarding). -/
def lengthOk (n : Nat) : Bool := decide (1 ≤ n) && decide (n ≤ 64)

/-- A slot read returns 64 bytes (R2). -/
def slotSizeOk (slot : List Byte) : Bool := slot.length == 64

/-- The slot holds a POSTED order (byte 56 is 1, R4) whose kind byte (byte 0, R7) is `k`. -/
def postedKind (k : Nat) (slot : List Byte) : Bool :=
  slotSizeOk slot && (slot.getD 56 0).toNat == 1 && (slot.getD 0 0).toNat == k

/-- TE expectations exist at FUSE, LOOPOUT and the terminal stations only (R25). -/
def edgeOk : Station → Edge → Bool
  | _, .le => true
  | .fuse, .te => true
  | .loopin, .te => true
  | .loopout, .te => true
  | .stka, .te => true
  | .stkb, .te => true
  | .purge, .te => true
  | _, .te => false

/-- The command's operands are ones the spec admits. -/
def Instr.wellFormed : Instr → Bool
  | .boardBusWrite _ data _ => lengthOk data.length
  | .boardBusRead _ len _ => lengthOk len
  | .memoryPortGrant => true
  | .orderPost => true
  | .commitWrite => true
  | .tailWrite => true
  | .forwardedWriteComplete _ => true
  | .forwardedReadComplete ok data => if ok then lengthOk data.length else data.isEmpty
  | .slotReadIssue => true
  | .stalePost slot => slotSizeOk slot && (slot.getD 56 0).toNat != 1
  | .kindUnknown slot =>
      slotSizeOk slot && (slot.getD 56 0).toNat == 1 &&
        (decide ((slot.getD 0 0).toNat < 1) || decide (9 < (slot.getD 0 0).toNat))
  | .sheet slot => postedKind 1 slot
  | .hold slot => postedKind 2 slot
  | .resume slot => postedKind 3 slot
  | .standby slot => postedKind 4 slot
  | .cleared slot => postedKind 5 slot
  | .cancel slot => postedKind 6 slot
  | .watch slot => postedKind 7 slot
  | .dump slot => postedKind 8 slot
  | .tally slot => postedKind 9 slot
  | .ownAccessHandover _ => true
  | .postWordWritebackComplete => true
  | .setupFetchReadComplete data => slotSizeOk data
  | .setupDecision => true
  | .recordWriteIssue => true
  | .recordWriteComplete => true
  | .headWordWriteIssue => true
  | .headWordWriteComplete => true
  | .dumpWriteComplete => true
  | .ownAccessError => true
  | .encPulse => true
  | .tick => true
  | .encoderLoss => true
  | .startTimerExpiry => true
  | .treadyRise => true
  | .treadyFall => true
  | .coverRise => true
  | .coverFall => true
  | .trayrdyChange _ _ => true
  | .stkfullChange _ _ => true
  | .sensorLevelChange _ _ => true
  | .debounceCompletion _ => true
  | .expectationExpiry _ st e => edgeOk st e
  | .div _ => true
  | .park _ => true
  | .top _ => true
  | .underrunCheck _ => true
  | .gapWait => true
  | .idleWait => true
  | .systemReset _ => true
  | .powerOnReset _ => true

end Sys2Proof
end

