-- ==== Sys2Proof/Laws/PerInstr.lean ====
section
/-! SUPPORT. One lemma for every constructor of `Instr`: it stands for its own row of spec/opcode_table.json. -/

namespace Sys2Proof.Laws.TableRow

/-- The mnemonics of spec/opcode_table.json, in the table's order. -/
def rows : List String :=
  ["BOARD_BUS_WRITE", "BOARD_BUS_READ", "MEMORY_PORT_GRANT", "ORDER_POST"] ++
  ["COMMIT_WRITE", "TAIL_WRITE", "FORWARDED_WRITE_COMPLETE", "FORWARDED_READ_COMPLETE"] ++
  ["SLOT_READ_ISSUE", "STALE_POST", "KIND_UNKNOWN", "SHEET"] ++
  ["HOLD", "RESUME", "STANDBY", "CLEARED"] ++
  ["CANCEL", "WATCH", "DUMP", "TALLY"] ++
  ["OWN_ACCESS_HANDOVER", "POST_WORD_WRITEBACK_COMPLETE", "SETUP_FETCH_READ_COMPLETE", "SETUP_DECISION"] ++
  ["RECORD_WRITE_ISSUE", "RECORD_WRITE_COMPLETE", "HEAD_WORD_WRITE_ISSUE", "HEAD_WORD_WRITE_COMPLETE"] ++
  ["DUMP_WRITE_COMPLETE", "OWN_ACCESS_ERROR", "ENC_PULSE", "TICK"] ++
  ["ENCODER_LOSS", "START_TIMER_EXPIRY", "TREADY_RISE", "TREADY_FALL"] ++
  ["COVER_RISE", "COVER_FALL", "TRAYRDY_CHANGE", "STKFULL_CHANGE"] ++
  ["SENSOR_LEVEL_CHANGE", "DEBOUNCE_COMPLETION", "EXPECTATION_EXPIRY", "DIV"] ++
  ["PARK", "TOP", "UNDERRUN_CHECK", "GAP_WAIT"] ++
  ["IDLE_WAIT", "SYSTEM_RESET", "POWER_ON_RESET"]

/-- The number of a command's row, from 0. -/
def rowNumber : Instr → Nat
  | .boardBusWrite _ _ _ => 0
  | .boardBusRead _ _ _ => 1
  | .memoryPortGrant => 2
  | .orderPost => 3
  | .commitWrite => 4
  | .tailWrite => 5
  | .forwardedWriteComplete _ => 6
  | .forwardedReadComplete _ _ => 7
  | .slotReadIssue => 8
  | .stalePost _ => 9
  | .kindUnknown _ => 10
  | .sheet _ => 11
  | .hold _ => 12
  | .resume _ => 13
  | .standby _ => 14
  | .cleared _ => 15
  | .cancel _ => 16
  | .watch _ => 17
  | .dump _ => 18
  | .tally _ => 19
  | .ownAccessHandover _ => 20
  | .postWordWritebackComplete => 21
  | .setupFetchReadComplete _ => 22
  | .setupDecision => 23
  | .recordWriteIssue => 24
  | .recordWriteComplete => 25
  | .headWordWriteIssue => 26
  | .headWordWriteComplete => 27
  | .dumpWriteComplete => 28
  | .ownAccessError => 29
  | .encPulse => 30
  | .tick => 31
  | .encoderLoss => 32
  | .startTimerExpiry => 33
  | .treadyRise => 34
  | .treadyFall => 35
  | .coverRise => 36
  | .coverFall => 37
  | .trayrdyChange _ _ => 38
  | .stkfullChange _ _ => 39
  | .sensorLevelChange _ _ => 40
  | .debounceCompletion _ => 41
  | .expectationExpiry _ _ _ => 42
  | .div _ => 43
  | .park _ => 44
  | .top _ => 45
  | .underrunCheck _ => 46
  | .gapWait => 47
  | .idleWait => 48
  | .systemReset _ => 49
  | .powerOnReset _ => 50

/-- The command's mnemonic stands in the table in the row of its constructor. -/
def Statement (i : Instr) : Prop := rows[rowNumber i]? = some i.mnemonic

/-- No two rows of the table have one mnemonic. -/
theorem rows_nodup : rows.Nodup := by decide

theorem boardBusWrite (addr : Addr) (data : List Byte) (tag : BitVec 3) : Statement (.boardBusWrite addr data tag) := rfl

theorem boardBusRead (addr : Addr) (len : Nat) (tag : BitVec 3) : Statement (.boardBusRead addr len tag) := rfl

theorem memoryPortGrant : Statement .memoryPortGrant := rfl

theorem orderPost : Statement .orderPost := rfl

theorem commitWrite : Statement .commitWrite := rfl

theorem tailWrite : Statement .tailWrite := rfl

theorem forwardedWriteComplete (ok : Bool) : Statement (.forwardedWriteComplete ok) := rfl

theorem forwardedReadComplete (ok : Bool) (data : List Byte) : Statement (.forwardedReadComplete ok data) := rfl

theorem slotReadIssue : Statement .slotReadIssue := rfl

theorem stalePost (slot : List Byte) : Statement (.stalePost slot) := rfl

theorem kindUnknown (slot : List Byte) : Statement (.kindUnknown slot) := rfl

theorem sheet (slot : List Byte) : Statement (.sheet slot) := rfl

theorem hold (slot : List Byte) : Statement (.hold slot) := rfl

theorem resume (slot : List Byte) : Statement (.resume slot) := rfl

theorem standby (slot : List Byte) : Statement (.standby slot) := rfl

theorem cleared (slot : List Byte) : Statement (.cleared slot) := rfl

theorem cancel (slot : List Byte) : Statement (.cancel slot) := rfl

theorem watch (slot : List Byte) : Statement (.watch slot) := rfl

theorem dump (slot : List Byte) : Statement (.dump slot) := rfl

theorem tally (slot : List Byte) : Statement (.tally slot) := rfl

theorem ownAccessHandover (block : OwnBlock) : Statement (.ownAccessHandover block) := rfl

theorem postWordWritebackComplete : Statement .postWordWritebackComplete := rfl

theorem setupFetchReadComplete (data : List Byte) : Statement (.setupFetchReadComplete data) := rfl

theorem setupDecision : Statement .setupDecision := rfl

theorem recordWriteIssue : Statement .recordWriteIssue := rfl

theorem recordWriteComplete : Statement .recordWriteComplete := rfl

theorem headWordWriteIssue : Statement .headWordWriteIssue := rfl

theorem headWordWriteComplete : Statement .headWordWriteComplete := rfl

theorem dumpWriteComplete : Statement .dumpWriteComplete := rfl

theorem ownAccessError : Statement .ownAccessError := rfl

theorem encPulse : Statement .encPulse := rfl

theorem tick : Statement .tick := rfl

theorem encoderLoss : Statement .encoderLoss := rfl

theorem startTimerExpiry : Statement .startTimerExpiry := rfl

theorem treadyRise : Statement .treadyRise := rfl

theorem treadyFall : Statement .treadyFall := rfl

theorem coverRise : Statement .coverRise := rfl

theorem coverFall : Statement .coverFall := rfl

theorem trayrdyChange (tray : Fin 4) (level : Bool) : Statement (.trayrdyChange tray level) := rfl

theorem stkfullChange (stacker : Stacker) (level : Bool) : Statement (.stkfullChange stacker level) := rfl

theorem sensorLevelChange (line : Fin 16) (level : Bool) : Statement (.sensorLevelChange line level) := rfl

theorem debounceCompletion (line : Fin 16) : Statement (.debounceCompletion line) := rfl

theorem expectationExpiry (launch : Launch) (station : Station) (edge : Edge) : Statement (.expectationExpiry launch station edge) := rfl

theorem div (launch : Launch) : Statement (.div launch) := rfl

theorem park (launch : Launch) : Statement (.park launch) := rfl

theorem top (launch : Launch) : Statement (.top launch) := rfl

theorem underrunCheck (launch : Launch) : Statement (.underrunCheck launch) := rfl

theorem gapWait : Statement .gapWait := rfl

theorem idleWait : Statement .idleWait := rfl

theorem systemReset (base : BitVec 4) : Statement (.systemReset base) := rfl

theorem powerOnReset (base : BitVec 4) : Statement (.powerOnReset base) := rfl

end Sys2Proof.Laws.TableRow
end

