-- ==== Sys2Proof/Tests/Slice0.lean ====
section
/-! SUPPORT. Tests of the model, with results taken from the spec's rules and worked cases, and the witnesses of the
obligations: for each obligation with hypotheses, concrete states and operands that meet them. -/

namespace Sys2Proof.Tests

set_option Elab.async false

open Sys2Proof Sys2Proof.Machine

/-! ### States to test on -/

/-- The state after a command. -/
def after (c : Instr) (s : State) : State :=
  match exec c s with
  | .next t => t
  | .fault _ => s
  | .refused _ => s

/-- A station that is present on a line, 20 early and 40 late. -/
def onLine (l : Nat) : StationEntry := { present := true, line := l, early := 20, late := 40 }

/-- A station that is absent. -/
def absent : StationEntry := { present := false, line := 0, early := 0, late := 0 }

/-- A setup with one tray and a duplex loop. -/
def cfg : Setup where
  orderBase := 0x10000
  orderSlots := 16
  reportBase := 0x20000
  reportSlots := 64
  controlBase := 0x30000
  recovery := .piece
  lossAction := .drain
  pathDepth := 12
  markLines := 4
  gateDepth := 1
  kindEnable := 0x3FE
  markEnable := true
  jogEnable := true
  tallyEnable := true
  classMap := #v[.processor, .channel, .imager, .other, .other, .other, .other, .other]
  lockedRaster := { processor := .error, channel := .drop, imager := .error, other := .pass }
  reportArea := { processor := .pass, channel := .error, imager := .drop, other := .error }
  orderInflight := { processor := .pass, channel := .pass, imager := .pass, other := .error }
  minGap := 100
  margin := 50
  startLimit := 1
  lossLimit := 2
  estRate := 40
  linger := 20
  trailTol := 30
  debounce := 2
  loopLength := 12000
  loopGap := 200
  dLr := 800
  dSettle := 300
  dX := 450
  dTop := 600
  dF := 1200
  dDv := 1500
  dLi := 2500
  dA := 2000
  dB := 2600
  dP := 1900
  trays := #v[{ f := 400, p := 900 }, { f := 0, p := 0 }, { f := 0, p := 0 }, { f := 0, p := 0 }]
  stations :=
    #v[onLine 0, absent, absent, absent, onLine 4, onLine 5, onLine 6, onLine 7, onLine 8, onLine 9, onLine 10,
      onLine 11]

/-- A set-up controller in IDLE, with the transport at speed and the cover closed. -/
def idle : State :=
  { State.reset with
    setup := { State.reset.setup with inForce := some cfg, revision := 7 }
    run := { State.reset.run with state := .idle }
    pins := { State.reset.pins with tready := true, cover := true } }

/-- The same in RUNNING. -/
def running : State := { idle with run := { idle.run with state := .running } }

/-- The side record of a raster. -/
def side (base : Nat) : SideRec := { base := base, len := 1260000, stride := 600, image := 2100, mark := some 1200 }

/-- The first sheet of piece 0x4410, simplex to STKA. -/
def simplex : LogicalSheet where
  seq := 3100
  piece := 0x4410
  index := 1
  last := false
  tray := 0
  plex := .simplex
  output := .a
  length := 2100
  tag := 9
  front := side 0x400000
  back := none

/-- The next sheet of the piece, duplex to STKA. -/
def duplex : LogicalSheet :=
  { simplex with
    seq := 3101, index := 2, last := true, plex := .duplex, front := side 0x600000, back := some (side 0x800000) }

/-- A print on its way: released at position 0 with a serial. -/
def print (l : Launch) (x : LogicalSheet) : PathEntry :=
  { newEntry l 16776000 x with serial := some 901000, phase := .travel, releasePos := some 0 }

/-- RUNNING at position `p` with these path entries and items. -/
def tracking (p : Pos) (path : List PathEntry) (items : List Item) : State :=
  { running with
    time := { running.time with pos := p }
    track := { running.track with path := path }
    expect := { running.expect with items := items }
    plan := { running.plan with counter := 5 } }

/-- A position event. -/
def event (k : ItemKind) (p : Pos) : Item := { kind := k, pos := p, early := 0, late := 0 }

/-- An edge expectation with the station tolerances 20 and 40. -/
def expects (l : Launch) (st : Station) (e : Edge) (p : Pos) : Item :=
  { kind := .edge l st e, pos := p, early := 20, late := 40 }

/-- The memory port carries an own access of this kind. -/
def carrying (k : OwnKind) (s : State) : State :=
  { s with pass := { s.pass with granted := some (.own { kind := k, addr := 0x10000, len := 64, data := [] }) } }

/-- A write of the initiator with tag 0, as the forward queue holds it. -/
def write (addr : Nat) (data : List Byte) : Forwarded :=
  { access := { addr := addr, len := data.length, write := true, data := data, tag := 0 }, cls := .processor }

/-- A 64-byte read of the imager, tag 2. -/
def imagerRead (addr : Nat) : Forwarded :=
  { access := { addr := addr, len := 64, write := false, data := [], tag := 2 }, cls := .imager }

/-- The memory port carries a forwarded access. -/
def forwarding (f : Forwarded) (s : State) : State :=
  { s with pass := { s.pass with granted := some (.forwarded f) } }

/-- Slot 3 is posted, in hand and read. -/
def fetched (s : State) : State :=
  carrying .slotRead { s with fetch := { s.fetch with posted := [3, 5], next := 3, inHand := some 3 } }

/-- A POSTED slot with these bytes at its start. -/
def order (bytes : List Byte) : List Byte := padTo 56 bytes ++ [1, 0, 0, 0, 0, 0, 0, 0]

/-- The SHEET order of index 1 of piece 0x4410, tray 1, STKA, length 2100, with a mark on its front. -/
def sheetOrder : List Byte :=
  order ([1, 4, 1, 1, 1, 0, 1, 0, 0x10, 0x44, 0, 0, 9, 0, 0, 0, 0x34, 0x08, 0, 0] ++
    toLE 4 0x400000 ++ toLE 4 1260000 ++ toLE 2 600 ++ toLE 2 2100 ++ toLE 4 1200)

/-- A setup block for `cfg`, revision 9, as 12_record_and_order_formats.md lays it out. -/
def copy : List (List Byte) :=
  let present (l : Nat) : List Byte := [1, byte l, 0, 0, 20, 0, 40, 0]
  let none8 : List Byte := [0, 0, 0, 0, 0, 0, 0, 0]
  [toLE 4 0x10000 ++ toLE 4 16 ++ toLE 4 0x20000 ++ toLE 4 64 ++ toLE 4 0x30000 ++ [2, 2, 12, 4] ++ toLE 2 1 ++
      toLE 2 0x3FE ++ [7, 0, 0, 0] ++ [0, 1, 2, 3, 3, 3, 3, 3] ++ [2, 1, 2, 0] ++ [0, 2, 1, 2] ++ [0, 0, 0, 2] ++
      List.replicate 12 0,
    toLE 2 100 ++ toLE 2 50 ++ [1, 2] ++ toLE 2 40 ++ toLE 2 20 ++ toLE 2 30 ++ [2, 0, 0, 0] ++ toLE 4 12000 ++
      toLE 4 200 ++ toLE 4 800 ++ toLE 4 300 ++ toLE 4 450 ++ toLE 4 600 ++ toLE 4 1200 ++ toLE 4 1500 ++
      toLE 4 2500 ++ toLE 4 2000 ++ toLE 4 2600 ++ toLE 4 1900,
    padTo 64 (toLE 4 400 ++ toLE 4 900), List.replicate 64 0,
    present 0 ++ none8 ++ none8 ++ none8 ++ present 4 ++ present 5 ++ present 6 ++ present 7,
    padTo 64 (present 8 ++ present 9 ++ present 10 ++ present 11)] ++
  List.replicate 57 (List.replicate 64 0) ++ [List.replicate 56 0 ++ [1, 9, 0, 0, 0, 0, 0, 0]]

/-- The setup block at 0 has been fetched. -/
def deciding (s : State) : State := { s with setup := { s.setup with fetch := .deciding, copy := copy } }

/-! ### Words and well-formedness -/

theorem test_no_word_spells_a_command : decodeTableWord 16 0xFFFF = none ∧ (idle.withFetchWord 16 5) = idle := by
  decide +kernel

theorem test_ill_formed_write_without_bytes : (Instr.boardBusWrite 0 [] 0).wellFormed = false := by decide

theorem test_ill_formed_read_of_65_bytes : (Instr.boardBusRead 0 65 0).wellFormed = false := by decide

theorem test_ill_formed_read_error_with_data : (Instr.forwardedReadComplete false [1]).wellFormed = false := by decide

theorem test_ill_formed_short_slot : (Instr.stalePost [0]).wellFormed = false := by decide

theorem test_ill_formed_stale_post_that_is_posted : (Instr.stalePost (order [1])).wellFormed = false := by decide

theorem test_ill_formed_unknown_kind_that_is_known : (Instr.kindUnknown (order [9])).wellFormed = false := by decide

theorem test_ill_formed_hold_of_kind_resume : (Instr.hold (order [3])).wellFormed = false := by decide

theorem test_ill_formed_trailing_edge_at_reg : (Instr.expectationExpiry 0 .reg .te).wellFormed = false := by decide

theorem test_ill_formed_setup_read_of_32_bytes :
    (Instr.setupFetchReadComplete (List.replicate 32 0)).wellFormed = false := by decide

theorem test_well_formed_sheet : (Instr.sheet sheetOrder).wellFormed = true := by decide +kernel

/-! ### Worked cases of the spec -/

/-- 02_position_arithmetic, A window across the wrap: released at 16,776,900, d_x 450, tolerances 20 and 40. -/
theorem test_window_across_the_wrap :
    let i : Item := expects 0 .xfer .le (plus 16776900 450)
    i.opens = 114 ∧ i.closes = 174 ∧ i.due = 175 ∧ i.inWindow 114 = true ∧ i.inWindow 174 = true ∧
      i.inWindow 113 = false ∧ i.inWindow 175 = false := by decide +kernel

/-- R107, R108: serial 0x0001E23F, index 3, last, BACK. -/
theorem test_mark_value : markValue 0x0001E23F 3 true .back = [0x5A, 0, 1, 0xE2, 0x3F, 0xC0, 3, 0x3F] := by
  decide +kernel

theorem test_mark_expansion :
    expandMark (markValue 0x0001E23F 3 true .back) =
      [0x66, 0x99, 0x55, 0x55, 0x55, 0x56, 0xA9, 0x59, 0x5A, 0xAA, 0xA5, 0x55, 0x55, 0x5A, 0x5A, 0xAA] := by
  decide +kernel

theorem test_setup_block_is_read : parseSetup copy = cfg := by decide +kernel

theorem test_setup_block_is_valid : validate 1 copy = none := by decide +kernel

theorem test_ring_over_the_setup_block_is_refused :
    regionOk 0 { cfg with orderBase := 0xFC0 } = false ∧ regionOk 0 { cfg with orderBase := 0x1000 } = true := by
  decide +kernel

/-! ### The board bus and the memory port -/

/-- A state whose lock table holds the extent 0x400000 to 0x400FFF. -/
def locked : State :=
  { idle with pass := { idle.pass with locks := [{ seq := 3100, side := .front, base := 0x400000, len := 4096 }] } }

theorem test_write_to_locked_raster_is_refused :
    let t := after (.boardBusWrite 0x400FFF [7] 0) locked
    t.out = [.busDone 0 false []] ∧ t.pass = locked.pass ∧
      t.report.queue.map Queued.record =
        [.policy
          { row := .lockedRaster, outcome := .error, count := 1, mixed := false, addr := 0x400FFF, len := 1, tag := 0
            cls := .processor, value := none, view := none }] := by decide +kernel

theorem test_write_beyond_locked_raster_passes :
    (after (.boardBusWrite 0x401000 [7] 0) locked).pass.fwd = [write 0x401000 [7]] := by decide +kernel

theorem test_read_joins_forward_queue :
    (after (.boardBusRead 0x40 64 2) idle).pass.fwd = [imagerRead 0x40] := by decide +kernel

theorem test_crossing_read_is_an_error :
    (after (.boardBusRead 0x41 64 2) idle).out = [.busDone 2 false []] := by decide +kernel

/-- Both queues hold an access and the wait count is `n`. -/
def contended (n : Nat) : State :=
  { idle with
    pass :=
      { idle.pass with
        fwd := [imagerRead 0], own := [{ kind := .slotRead, addr := 0x10000, len := 64, data := [] }], wait := n } }

theorem test_fourth_forward_grant : (after .memoryPortGrant (contended 3)).pass.wait = 4 := by decide +kernel

theorem test_own_grant_after_four :
    (after .memoryPortGrant (contended 4)).pass.wait = 0 ∧ (after .memoryPortGrant (contended 4)).pass.own = [] := by
  decide +kernel

theorem test_post_joins_map :
    (after .orderPost (forwarding (write (0x10000 + 64 * 15 + 56) [1]) idle)).fetch.posted = [15] := by decide +kernel

theorem test_commit_write_begins_fetch :
    let t := after .commitWrite (forwarding (write 0xFF8 [1, 9]) idle)
    t.setup.fetch = .fetching ∧ t.pass.own.length = 16 ∧ t.setup.issued = 16 := by decide +kernel

/-- Tail view 60, visible head 2, in a ring of 64. -/
def ring : State := { idle with report := { idle.report with tail := 60, visible := 2, head := 2, write := 2 } }

theorem test_tail_value_at_visible_head :
    (after .tailWrite (forwarding (write 0x30008 [2, 0, 0, 0]) ring)).report.tail = 2 := by decide +kernel

theorem test_tail_value_out_of_order :
    (after .tailWrite (forwarding (write 0x30008 [3, 0, 0, 0]) ring)).report.tail = 60 ∧
      ((after .tailWrite (forwarding (write 0x30008 [3, 0, 0, 0]) ring)).report.queue.map Queued.record).length = 1 := by
  decide +kernel

theorem test_failed_post_is_no_post :
    let t := after (.forwardedWriteComplete false) (forwarding (write 0x10038 [1]) idle)
    t.fetch.posted = [] ∧ t.out = [.busDone 0 false []] := by decide +kernel

/-- A current side at 0x400000 with stride 64 and a mark at offset 8, all of its bytes 0xAA. -/
def current : CurrentSide where
  launch := 0
  side := .front
  base := 0x400000
  len := 640
  stride := 64
  mark := some { offset := 8, bytes := List.replicate 16 0xAA }
  topPos := 600
  progress := 0

/-- RUNNING with a current side. -/
def imaging : State := { tracking 700 [print 0 simplex] [] with image := { running.image with current := some current } }

theorem test_imager_read_carries_mark :
    let t := after (.forwardedReadComplete true (List.replicate 64 1)) (forwarding (imagerRead 0x400040) imaging)
    t.out = [.busDone 2 true (List.replicate 8 1 ++ List.replicate 16 0xAA ++ List.replicate 40 1)] ∧
      (t.image.current.map CurrentSide.progress) = some 128 := by decide +kernel

/-! ### Orders -/

/-- The next slot 3 is posted. -/
def posted : State := { idle with fetch := { idle.fetch with posted := [3], next := 3 } }

theorem test_slot_read :
    (after .slotReadIssue posted).pass.own = [{ kind := .slotRead, addr := 0x100C0, len := 64, data := [] }] ∧
      (after .slotReadIssue posted).fetch.inHand = some 3 := by decide +kernel

theorem test_stale_post_leaves_map :
    let t := after (.stalePost (List.replicate 64 0)) (fetched idle)
    t.fetch.posted = [5] ∧ t.fetch.inHand = none ∧ t.fetch.next = 3 ∧ t.pass.own = [] := by decide +kernel

theorem test_unknown_kind_is_rejected :
    let t := after (.kindUnknown (order [10])) (fetched idle)
    t.pass.own = [{ kind := .postWrite, addr := 0x100F8, len := 8, data := [3, 0, 0, 0, 1, 0, 0, 0] }] ∧
      t.fetch.next = 4 := by decide +kernel

theorem test_sheet_is_accepted :
    let t := after (.sheet sheetOrder) (fetched { idle with run := { idle.run with hold := true } })
    t.pass.own = [{ kind := .postWrite, addr := 0x100F8, len := 8, data := [2, 0, 0, 0, 0, 0, 0, 0] }] ∧
      t.fetch.counter = 1 ∧ t.run.state = .running ∧
      t.fetch.schedule = [{ simplex with seq := 0 }] ∧
      t.pass.locks = [{ seq := 0, side := .front, base := 0x400000, len := 1260000 }] ∧
      (t.fetch.openPiece.map OpenPiece.eligible) = some true := by decide +kernel

theorem test_sheet_out_of_piece_order_is_rejected :
    let t := after (.sheet (sheetOrder.set 6 2)) (fetched idle)
    t.fetch.counter = 0 ∧ (t.pass.own.map OwnAccess.data) = [[3, 0, 0, 0, 9, 0, 0, 0]] := by decide +kernel

/-- The answer to a control order: the post word's result byte and the records handed over. -/
def answer (t : State) : List (List Byte) × Nat := (t.pass.own.map OwnAccess.data, t.report.queue.length)

theorem test_hold :
    let t := after (.hold (order [2])) (fetched running)
    t.run.hold = true ∧ t.run.state = .running ∧ answer t = ([[2, 0, 0, 0, 0, 0, 0, 0]], 1) := by decide +kernel

theorem test_resume_ends_drain :
    let t := after (.resume (order [3]))
      (fetched { running with run := { running.run with state := .draining, standby := true, hold := true } })
    t.run = { state := .running, hold := false, standby := false, timer := none } ∧ t.report.queue.length = 2 := by
  decide +kernel

theorem test_standby_drains :
    let t := after (.standby (order [4])) (fetched running)
    t.run.state = .draining ∧ t.run.standby = true := by decide +kernel

/-- STOPPED with a sheet left in the path, in estimate mode. -/
def stopped : State :=
  { idle with
    run := { idle.run with state := .stopped }
    recover := { idle.recover with lock := true }
    time := { idle.time with pos := 77, estimate := true, acc := 5, estTicks := 9 }
    track := { idle.track with path := [PathEntry.detachedAs .stop (print 0 simplex)], loop := [0] } }

theorem test_cleared :
    let t := after (.cleared (order [5])) (fetched stopped)
    t.run.state = .idle ∧ t.track.path = [] ∧ t.track.loop = [] ∧ t.time = { idle.time with pos := 77 } ∧
      t.recover.lock = false := by decide +kernel

theorem test_cleared_outside_stopped :
    answer (after (.cleared (order [5])) (fetched idle)) = ([[2, 0, 0, 0, 1, 0, 0, 0]], 1) := by decide +kernel

/-- One sheet of piece 0x4410 in the schedule queue and one in the path, held. -/
def twoHeld : State :=
  { tracking 10 [print 0 simplex] [] with
    run := { running.run with hold := true }
    fetch := { running.fetch with schedule := [{ simplex with seq := 3101, index := 2 }] } }

theorem test_cancel :
    let t := after (.cancel (order [6, 0, 0, 0, 0x10, 0x44])) (fetched twoHeld)
    t.fetch.schedule = [] ∧ (t.track.path.map PathEntry.reason) = [some .cancelled] ∧ t.report.queue.length = 2 := by
  decide +kernel

theorem test_cancel_of_unknown_piece :
    answer (after (.cancel (order [6, 0, 0, 0, 0x11, 0x44])) (fetched twoHeld)) =
      ([[2, 0, 0, 0, 3, 0, 0, 0]], 1) := by decide +kernel

/-- A WATCH order: W1, REPORT, SHEET, AFTER_W0, no keep, count 3, event LE, station ANY, piece ANY. -/
def watchOrder : List Byte := order [7, 1, 1, 2, 1, 0, 3, 0, 0, 0, 0, 0, 0, 0, 0, 0, 1, 255, 1]

theorem test_watch :
    let t := after (.watch watchOrder) (fetched idle)
    t.watch.w1.state = .waiting ∧ t.watch.w1.remaining = 3 ∧
      (t.watch.w1.program.map WatchProgram.source) = some (.sheet .le none none) := by decide +kernel

/-- A history entry. -/
def entry (p : Pos) : HistEntry :=
  { kind := .le, station := some .reg, serial := none, seq := none, launch := none, pos := p, runState := .running }

/-- Five entries in the history. -/
def history : State :=
  { idle with history := { idle.history with entries := [entry 1, entry 2, entry 3, entry 4, entry 5] } }

theorem test_dump_onto_the_order_ring_is_rejected :
    answer (after (.dump (order [8, 0, 0, 0, 32, 0, 0, 0, 0, 0, 1, 0])) (fetched history)) =
      ([[3, 0, 0, 0, 3, 0, 0, 0]], 1) := by decide +kernel

theorem test_dump_writes :
    let t := after (.dump (order [8, 0, 0, 0, 32, 0, 0, 0, 0, 0, 0x70, 0])) (fetched history)
    (t.pass.own.map OwnAccess.addr) = [0x700000, 0x700040, 0x100F8] ∧
      (t.history.dump.map Dump.issued) = some 2 := by decide +kernel

theorem test_tally :
    (after (.tally (order [9, 0, 0, 0, 0, 0, 0, 0, 0x40, 0xE2, 1, 0])) (fetched idle)).tally =
      { nextSerial := 0x1E240, delivered := 0, lastSerial := 0, lastPiece := 0, valid := true } := by decide +kernel

theorem test_tally_while_sheets_are_in_the_path :
    answer (after (.tally (order [9])) (fetched (tracking 10 [print 0 simplex] []))) =
      ([[2, 0, 0, 0, 6, 0, 0, 0]], 1) := by decide +kernel

/-! ### The controller's own accesses -/

theorem test_handover_of_setup_read :
    (after (.ownAccessHandover .setup) { idle with setup := { idle.setup with fetch := .fetching, issued := 63 } }).pass.own =
      [{ kind := .setupRead 63, addr := 4032, len := 64, data := [] }] := by decide +kernel

theorem test_writeback_ends_slot :
    (after .postWordWritebackComplete
      (carrying .postWrite { idle with fetch := { idle.fetch with inHand := some 3 } })).fetch.inHand = none := by
  decide +kernel

theorem test_last_setup_read :
    (after (.setupFetchReadComplete (List.replicate 64 0))
      (carrying (.setupRead 63) { idle with setup := { idle.setup with fetch := .fetching, done := 63 } })).setup.fetch =
        .deciding := by decide +kernel

theorem test_setup_is_accepted :
    let t := after .setupDecision (deciding State.reset)
    t.run.state = .idle ∧ t.setup.inForce = some cfg ∧ t.setup.revision = 9 ∧
      (t.pass.own.map OwnAccess.addr) = [0x30000] ∧ t.report.queue.length = 2 := by decide +kernel

theorem test_setup_with_sheets_queued_is_refused :
    let t := after .setupDecision (deciding { twoHeld with run := { idle.run with standby := true } })
    t.setup.fetch = .idle ∧ t.setup.revision = 7 ∧ t.report.queue.length = 1 := by decide +kernel

/-- A record waits in the outbound queue. -/
def reporting (i : Nat) : State :=
  { idle with
    report :=
      { idle.report with
        queue :=
          [{ record := .controlDone { slot := 3, kind := 2, result := .ok }, fixed := false }], write := i, head := i
        tail := 0 } }

theorem test_record_write :
    (after .recordWriteIssue (reporting 5)).pass.own =
      [{ kind := .recordWrite, addr := 0x200A0, len := 32, data := [6, 0, 0, 2, 3, 0] ++ List.replicate 26 0 }] := by
  decide +kernel

theorem test_record_waits_for_ring_room : after .recordWriteIssue (reporting 63) = reporting 63 := by decide +kernel

theorem test_record_written :
    let s := reporting 63
    (after .recordWriteComplete
      (carrying .recordWrite { s with report := { s.report with outstanding := some .record } })).report.write = 0 := by
  decide +kernel

theorem test_head_word_write :
    (after .headWordWriteIssue { idle with report := { idle.report with write := 0x103 } }).pass.own =
      [{ kind := .headWrite 0x103, addr := 0x30000, len := 8, data := [3, 1, 0, 0, 0, 0, 0, 0] }] := by decide +kernel

theorem test_visible_head_raises_attn :
    let t := after .headWordWriteComplete (carrying (.headWrite 5) idle)
    t.report.visible = 5 ∧ idle.attn = false ∧ t.attn = true := by decide +kernel

/-- A dump of five entries with both writes handed over and one completed. -/
def dumping (failed : Option Nat) : State :=
  { history with
    history :=
      { history.history with
        frozen := true
        dump :=
          some
            { dest := 0x700000, unfreeze := true, snapshot := history.history.entries, held := 5, pos := 0, issued := 2
              done := 1, failed := failed } } }

theorem test_dump_ends :
    let t := after .dumpWriteComplete (carrying (.dumpWrite 1) (dumping none))
    t.history.dump = none ∧ t.history.frozen = false ∧
      t.report.queue.map Queued.record =
        [.dumpDone { ok := true, written := 5, held := 5, dest := 0x700000, pos := 0, frozen := false }] := by
  decide +kernel

theorem test_failed_record_write_halts_and_stops :
    let t := after .ownAccessError (carrying .recordWrite (reporting 5))
    t.report.halted = true ∧ t.pass.memError = true ∧ t.run.state = .stopped ∧ t.attn = true := by decide +kernel

/-! ### The timebase -/

theorem test_pulse_advances_p :
    (after .encPulse (tracking 16777215 [] [])).time.pos = 0 := by decide +kernel

theorem test_pulse_waits_for_a_due_item :
    let t := after .encPulse (tracking 100 [] [event .gap 100])
    t.time.pos = 100 ∧ t.time.owed = 1 := by decide +kernel

/-- R53 with a rate of 40 sixteenths: from A = 12 a tick gives 3 counts and leaves 4. -/
theorem test_estimate_tick :
    let s := tracking 100 [print 0 simplex] []
    let t := after .tick { s with time := { s.time with estimate := true, acc := 12 } }
    t.time.pos = 103 ∧ t.time.acc = 4 ∧ t.time.estTicks = 1 := by decide +kernel

/-- One tick before a loss is declared, with an expectation open. -/
def silent : State :=
  let s := tracking 100 [print 0 simplex] [expects 0 .xfer .le 450]
  { s with time := { s.time with silence := 1 } }

theorem test_encoder_loss_drains :
    let t := after .encoderLoss silent
    t.run.state = .draining ∧ t.time.estimate = true ∧ (t.expect.items.map Item.late) = [80] ∧
      t.report.queue.length = 2 := by decide +kernel

/-- STARTING with the start timer at 99 ticks. -/
def starting : State :=
  { idle with
    run := { idle.run with state := .starting, timer := some 99 }, pins := { idle.pins with tready := false } }

theorem test_start_timer_expiry :
    (after .startTimerExpiry starting).run.state = .stopped ∧
      ((after .startTimerExpiry starting).recover.snapshot.map Snapshot.cause) = some .transportStart := by
  decide +kernel

/-! ### Lines -/

theorem test_tready_ends_starting :
    let t := after .treadyRise starting
    t.run.timer = none ∧ t.run.state = .running ∧ t.expect.items = [event .idle 20] := by decide +kernel

theorem test_tready_fall_stops : (after .treadyFall running).run.state = .stopped := by decide +kernel

/-- A sheet waits in IDLE with the cover open and TREADY low. -/
def waiting : State :=
  { idle with
    fetch := { idle.fetch with schedule := [simplex] }
    pins := { idle.pins with tready := false, cover := false } }

theorem test_cover_rise_starts :
    (after .coverRise waiting).run = { state := .starting, hold := false, standby := false, timer := some 0 } := by
  decide +kernel

theorem test_cover_fall_in_idle_is_no_stop : (after .coverFall idle).run.state = .idle := by decide +kernel

/-- RUNNING with a simplex sheet at the head of the queue and its tray down. -/
def ready : State := { tracking 16776900 [] [] with fetch := { idle.fetch with schedule := [simplex] } }

/-- A pick at 16,776,900: FEED1 and REG are expected 400 and 900 counts later, modulo 2^24. -/
theorem test_raised_tray_lets_the_head_be_picked :
    let t := after (.trayrdyChange 0 true) ready
    t.fetch.schedule = [] ∧ t.out = [.pick 0] ∧ (t.track.path.map PathEntry.launch) = [5] ∧ t.plan.counter = 6 ∧
      (t.expect.items.map Item.pos) = [84, 584] := by decide +kernel

theorem test_full_stacker_keeps_the_head_waiting :
    let s := after (.stkfullChange .a true) ready
    (after (.trayrdyChange 0 true) s).fetch.schedule = [simplex] := by decide +kernel

theorem test_sensor_change_is_stamped :
    (after (.sensorLevelChange 5 true) (tracking 100 [] [])).expect.lines[5] =
      { stable := false, change := some { level := true, stamp := 100 } } := by decide +kernel

/-- The XFER line went high at 460, and D = 2 counts have passed. -/
def debouncing (items : List Item) : State :=
  let s := tracking 462 [print 0 simplex] items
  { s with
    expect :=
      { s.expect with lines := s.expect.lines.set 5 { stable := false, change := some { level := true, stamp := 460 } } } }

theorem test_met_xfer_arms_fuse :
    let t := after (.debounceCompletion 5) (debouncing [expects 0 .xfer .le 450])
    t.run.state = .running ∧ t.expect.items = [expects 0 .fuse .le 1200] := by decide +kernel

theorem test_unclaimed_edge_is_stray :
    ((after (.debounceCompletion 5) (debouncing [])).recover.snapshot.map Snapshot.cause) = some .stray := by
  decide +kernel

/-! ### Items that fall due -/

theorem test_late :
    ((after (.expectationExpiry 0 .xfer .le) (tracking 491 [print 0 simplex] [expects 0 .xfer .le 450])).recover.snapshot.map
      fun n => (n.cause, n.pos)) = some (.late, 491) := by decide +kernel

theorem test_div_routes_first_leg_to_loop :
    (after (.div 0) (tracking 1500 [print 0 duplex] [event (.div 0) 1500])).track.divsel = .loop := by decide +kernel

theorem test_div_jogs_for_index_1 :
    let t := after (.div 0) (tracking 1500 [print 0 simplex] [event (.div 0) 1500])
    t.track.divsel = .stka ∧ t.track.jogA = true ∧ t.track.jogB = false := by decide +kernel

theorem test_park :
    ((after (.park 0) (tracking 9 [print 0 duplex] [event (.park 0) 9])).track.path.map PathEntry.phase) = [.parked] := by
  decide +kernel

theorem test_top :
    let t := after (.top 0) (tracking 600 [print 0 simplex] [event (.top 0) 600])
    t.image.port = { base := 0x400000, len := 1260000, stride := 600 } ∧ .top ∈ t.out ∧
      t.expect.items = [event (.check 0) 2750] := by decide +kernel

/-- The underrun check of the front of launch 0, with launch 1 behind it. -/
def checking (progress : Nat) : State :=
  let s := tracking 2750 [print 0 simplex, print 1 duplex] [event (.check 0) 2750]
  { s with
    run := { s.run with hold := true }
    image := { s.image with current := some { current with progress := progress } } }

theorem test_underrun_cascades :
    let t := after (.underrunCheck 0) (checking 639)
    (t.fetch.schedule.map LogicalSheet.seq) = [3100, 3101] ∧
      (t.track.path.map PathEntry.reason) = [some .underrun, some .cascade] ∧ t.run.state = .running := by
  decide +kernel

theorem test_imaged_side_is_no_underrun :
    (after (.underrunCheck 0) (checking 640)).track.path = [print 0 simplex, print 1 duplex] := by decide +kernel

theorem test_gap_wait :
    let s := tracking 100 [print 0 simplex] [event .gap 100]
    (after .gapWait { s with plan := { s.plan with gapMet := false } }).plan.gapMet = true := by decide +kernel

theorem test_idle_wait : (after .idleWait (tracking 100 [] [event .idle 100])).run.state = .idle := by decide +kernel

/-! ### Resets -/

/-- The particulars of a hit. -/
def hit : HitParticulars where
  unit := .w0
  action := .report
  pos := 9
  runState := .running
  hold := false
  item := .sheet { kind := .le, station := some .reg, piece := 0x4410, launch := 0, seq := some 3100, serial := none }

/-- A program that counts LE events anywhere. -/
def program (keep : Bool) : WatchProgram where
  source := .sheet .le none none
  count := 2
  afterW0 := false
  action := .report
  keep := keep

/-- W0 is programmed to be kept, or not, and has two pending hits. -/
def watched (keep : Bool) : State :=
  { running with
    watch :=
      { running.watch with
        w0 := { program := some (program keep), state := .spent, remaining := 0, hits := 2, first := some hit } }
    tally := { running.tally with nextSerial := 8, valid := true } }

theorem test_system_reset_carries_hits :
    let t := after (.systemReset 4) (watched true)
    t.run.state = .unset ∧ t.setup.inForce = none ∧ t.setup.base = 4 ∧ t.tally.nextSerial = 8 ∧
      t.watch.w0 = (watched true).watch.w0 ∧
      t.report.queue = [{ record := .watchHit { particulars := hit, hits := 2, carried := true }, fixed := false }] := by
  decide +kernel

theorem test_power_on_reset :
    after (.powerOnReset 0) (watched true) = { State.reset with pins := running.pins } := by decide +kernel

/-! ### Witnesses of the obligations

For each obligation with hypotheses, a theorem that concrete states and operands meet them; where an obligation has several
clauses, one part for each. -/

/-- A stretch of zero bytes. -/
theorem zero_of_zeroBetween (bs : List Byte) (lo hi : Nat) (h : zeroBetween bs lo hi = true) :
    ∀ i, lo ≤ i → i < hi → byteAt bs i = 0 := by
  intro i h1 h2
  have h3 := List.all_eq_true.mp h (i - lo) (List.mem_range.mpr (by omega))
  have h4 : lo + (i - lo) = i := by omega
  simpa [h4] using h3

/-- Two ranges that do not overlap have no address in common. -/
theorem not_touches (a la b lb : Nat) (h : overlaps a la b lb = false) : ¬touches a la b lb := by
  rw [← overlaps_iff, h]; decide

theorem witness_StepRunsFrontCommand :
    ({ idle with pending := [.tick, .encPulse] } : State).pending = [.tick, .encPulse] ∧ idle.pending = [] := ⟨rfl, rfl⟩

theorem witness_TransportStaysSafe :
    ∃ s t : State, s.transportSafe ∧ s.moving = true ∧ step s = .next t :=
  ⟨{ running with pending := [.treadyFall] }, _, by unfold State.transportSafe; decide +kernel, rfl, rfl⟩

theorem witness_StopStaysWhole : ∃ s t : State, s.stopWhole ∧ s.run.state = .stopped ∧ step s = .next t :=
  ⟨{ stopped with pending := [.tick] }, _, by unfold State.stopWhole; decide +kernel, rfl, rfl⟩

theorem witness_PathStaysWithinDepth :
    ∃ s t : State, s.pathFits ∧ s.track.path.length = s.cfg.pathDepth ∧ step s = .next t :=
  ⟨{ tracking 5 (List.replicate 12 (print 0 simplex)) [] with pending := [.trayrdyChange 0 true] }, _,
    by unfold State.pathFits; decide +kernel, by decide +kernel, rfl⟩

theorem witness_PortStaysWithinRoom : ∃ s t : State, s.portFits ∧ s.pass.wait = 4 ∧ step s = .next t :=
  ⟨{ contended 4 with pending := [.memoryPortGrant] }, _, by unfold State.portFits; decide +kernel, rfl, rfl⟩

theorem witness_CountersStayInRange :
    ∃ s t : State, s.countsFit ∧ s.time.estTicks = 65535 ∧ s.time.acc = 15 ∧ step s = .next t :=
  ⟨{ running with
      time := { running.time with estimate := true, estTicks := 65535, acc := 15 }, pending := [.tick] }, _,
    by unfold State.countsFit; decide +kernel, rfl, rfl, rfl⟩

theorem witness_LaunchNumbersStayDistinct :
    ∃ s t : State, s.launchesDistinct ∧ (∀ e ∈ s.track.path, e.launch ≠ s.plan.counter) ∧ s.track.path ≠ [] ∧
      step s = .next t :=
  ⟨{ checking 0 with pending := [.trayrdyChange 0 true] }, _, by unfold State.launchesDistinct; decide +kernel,
    by decide +kernel, by decide +kernel, rfl⟩

theorem witness_AttnAndMemoryError :
    (∃ t, exec .headWordWriteComplete (carrying (.headWrite 5) idle) = .next t ∧
      t.attn ≠ (carrying (.headWrite 5) idle).attn) ∧
    ∃ s t : State, exec .tick s = .next t ∧ isReset .tick = false ∧ s.pass.memError = true :=
  ⟨⟨_, rfl, by decide +kernel⟩, { idle with pass := { idle.pass with memError := true } }, _, rfl, rfl, rfl⟩

theorem witness_HeldOverEveryOtherCommand :
    ∃ t, exec .tick idle = .next t ∧ isReset .tick = false ∧ Instr.tick ≠ .setupDecision ∧
      (∀ l, Instr.tick ≠ .div l) ∧ ∀ l, Instr.tick ≠ .top l :=
  ⟨_, rfl, rfl, by decide, fun _ h => (nomatch h), fun _ h => (nomatch h)⟩

/-- A sheet waits in IDLE with the cover closed. -/
def covered (tready : Bool) : State := { waiting with pins := { waiting.pins with tready := tready, cover := true } }

theorem witness_EndOfEventDecisions :
    (let s : State := { running with run := { running.run with state := .draining }, time := { running.time with estimate := true } };
      s.run.state = .draining ∧ s.time.estimate = true ∧ s.track.path = []) ∧ running.run.state ≠ .draining ∧
    (∀ b ∈ [false, true], (covered b).run.state = .idle ∧ (covered b).fetch.schedule ≠ [] ∧
      (covered b).run.standby = false ∧ (covered b).pins.cover = true ∧ (covered b).pins.tready = b) ∧
    running.run.state ≠ .idle ∧ idle.run.state ≠ .running ∧ idle.run.state ≠ .draining ∧
    (∀ s ∈ [running, tracking 100 [] [event .idle 120]], s.run.state = .running ∧ s.time.estimate = false ∧
      s.track.path = [] ∧ s.fetch.schedule = [] ∧ s.pins.tready = true) ∧
    (∃ i ∈ (tracking 100 [] [event .idle 120]).expect.items, i.kind = .idle) ∧ running.expect.items = [] ∧
    (1 ≤ running.cfg.linger ∧ running.cfg.linger ≤ 65535) ∧ ({ cfg with linger := 0 } : Setup).linger = 0 := by
  decide +kernel

/-- The acceptance sequence counter stands behind both sheets of the path. -/
def ordered : State := { checking 639 with fetch := { (checking 639).fetch with counter := 3102 } }

theorem witness_UnderrunLosesNoSheet :
    ordered.launchesDistinct ∧ print 0 simplex ∈ ordered.track.path ∧ (print 0 simplex).sheet.isSome = true ∧
      ordered.sheetsInOrder := by
  unfold State.launchesDistinct State.sheetsInOrder; decide +kernel

/-- A simplex sheet in the path, and behind it a duplex one that is committed to the loop and has not reached the diverter. -/
def parkedBehind : State :=
  let s := tracking 2750 [print 0 simplex, print 1 { duplex with seq := 3101 }] []
  { s with
    track := { s.track with loop := [1] }
    plan := { s.plan with commitment := duplex.length + s.cfg.loopGap } }

/-- R66, R112, R114: the cascaded duplex sheet has no route yet and leaves the loop FIFO for PURGE. -/
theorem test_underrun_cascades_out_of_the_loop :
    let s := parkedBehind
    let t := underrun (print 0 simplex) .front 2750 s
    (t.track.path.map fun e => (e.sheet, e.reason, e.route)) =
        [(none, some .underrun, some .purge), (none, some .cascade, some .purge)] ∧
      t.track.loop = [] ∧ t.plan.commitment = 0 ∧
      (t.history.entries.map HistEntry.kind) = [.underrun .front 1] := by decide +kernel

/-! ### Witnesses: the board bus and the memory port -/

/-- The extents of all four kinds: a locked raster, the ring, the head word and slot 3 in hand. -/
def judging : State := { locked with fetch := { locked.fetch with inHand := some 3 } }

theorem witness_BusWriteJudged :
    judging.pass.fwd.length < 8 ∧ judging.run.state ≠ .unset ∧
    (0x400FFF % 64 + 1 ≤ 64 ∧ ∃ k ∈ judging.pass.locks, touches 0x400FFF 1 k.base k.len) ∧
    (0x207FF % 64 + 1 ≤ 64 ∧ (∀ k ∈ judging.pass.locks, ¬touches 0x207FF 1 k.base k.len) ∧
      touches 0x207FF 1 judging.cfg.reportBase (32 * judging.cfg.reportSlots)) ∧
    (0x30007 % 64 + 1 ≤ 64 ∧ (∀ k ∈ judging.pass.locks, ¬touches 0x30007 1 k.base k.len) ∧
      touches 0x30007 1 judging.cfg.controlBase 8) ∧
    (0x100FF % 64 + 1 ≤ 64 ∧ (∀ k ∈ judging.pass.locks, ¬touches 0x100FF 1 k.base k.len) ∧
      ¬touches 0x100FF 1 judging.cfg.reportBase (32 * judging.cfg.reportSlots) ∧
      ¬touches 0x100FF 1 judging.cfg.controlBase 8 ∧
      touches 0x100FF 1 (judging.cfg.orderBase + 64 * 3) 64) ∧
    (0x401000 % 64 + 64 ≤ 64 ∧ (∀ k ∈ judging.pass.locks, ¬touches 0x401000 64 k.base k.len) ∧
      ¬touches 0x401000 64 judging.cfg.reportBase (32 * judging.cfg.reportSlots) ∧
      ¬touches 0x401000 64 judging.cfg.controlBase 8 ∧
      ¬touches 0x401000 64 (judging.cfg.orderBase + 64 * 3) 64) ∧
    judging.cfg.lockedRaster.cell (judging.classOf 0) = .error ∧
    judging.cfg.lockedRaster.cell (judging.classOf 1) = .drop ∧
    judging.cfg.lockedRaster.cell (judging.classOf 7) = .pass := by
  simp only [← overlaps_iff]
  decide +kernel

theorem witness_BusAccessTaken :
    idle.pass.fwd.length < 8 ∧ (0x40 % 64 + 64 ≤ 64) ∧ (64 < 0x41 % 64 + 64) ∧
      8 ≤ ({ idle with pass := { idle.pass with fwd := List.replicate 8 (imagerRead 0) } } : State).pass.fwd.length ∧
      State.reset.pass.fwd.length < 8 ∧ State.reset.run.state = .unset := by decide +kernel

theorem witness_RecordsCoalesce :
    (∀ q ∈ idle.report.queue, ∀ r, q = { record := .policy r, fixed := false } → r.row ≠ .lockedRaster) ∧
    (∃ r : PolicyRec, (after (.boardBusWrite 0x400FFF [7] 0) locked).report.queue =
      [] ++ { record := .policy r, fixed := false } :: [] ∧ r.row = .lockedRaster) ∧
    (∃ p rs, (after .treadyFall running).report.queue = [] ++ { record := .state p, fixed := false } :: rs) ∧
    ∃ p, (after .commitWrite (forwarding (write 0xFF8 [1, 9]) running)).report.queue =
      [] ++ { record := .setup p, fixed := false } :: [] :=
  ⟨fun _ h => (nomatch h), ⟨_, rfl, rfl⟩, ⟨_, _, rfl⟩, ⟨_, rfl⟩⟩

theorem witness_ArbiterGrants :
    (contended 4).pass.granted = none ∧ (contended 4).pass.fwd.length = 1 ∧ (contended 4).pass.own.length = 1 ∧
      (contended 3).pass.wait < 4 ∧ 4 ≤ (contended 4).pass.wait ∧ idle.pass.fwd = [] ∧ idle.pass.own = [] ∧
      (forwarding (imagerRead 0) idle).pass.granted ≠ none ∧ posted.pass.granted = none ∧
      (after (.boardBusRead 0x40 64 2) idle).pass.fwd = [imagerRead 0x40] ∧
      (after (.boardBusRead 0x40 64 2) idle).pass.own = [] ∧ (after .slotReadIssue posted).pass.fwd = [] ∧
      (after .slotReadIssue posted).pass.own.length = 1 := by decide +kernel

theorem witness_PostJoinsMap :
    let f := write (0x10000 + 64 * 15 + 56) [1]
    let s := forwarding f idle
    s.pass.granted = some (.forwarded f) ∧ f.access.write = true ∧ s.run.state ≠ .unset ∧ s.cfg.orderBase % 64 = 0 ∧
      15 < s.cfg.orderSlots ∧ f.access.addr % 64 + f.access.len ≤ 64 ∧
      f.access.covers (s.cfg.orderBase + 64 * 15 + 56) = true ∧
      f.access.byteFor (s.cfg.orderBase + 64 * 15 + 56) = 1 ∧ s.isCommit f.access = false ∧
      s.touchesTail f.access = false := by decide +kernel

theorem witness_SetupFetch :
    let f := write 0xFF8 [1, 9]
    (∀ s ∈ [forwarding f idle, forwarding f State.reset, forwarding f running],
      s.pass.granted = some (.forwarded f) ∧ f.access.write = true ∧ f.access.covers (s.setupBase + 0xFF8) = true ∧
        f.access.byteFor (s.setupBase + 0xFF8) = 1 ∧ s.postOf f.access = none ∧ s.touchesTail f.access = false) ∧
    (idle.setup.fetch = .idle ∧ idle.run.state = .idle ∧ State.reset.run.state = .unset) ∧
    (running.run.state ≠ .unset ∧ running.run.state ≠ .idle) ∧
    ∀ done ∈ [62, 63], ∀ failed ∈ [false, true],
      let s := carrying (.setupRead 5)
        { idle with setup := { idle.setup with fetch := .fetching, done := done, failed := failed } }
      s.pass.granted = some (.own { kind := .setupRead 5, addr := 0x10000, len := 64, data := [] }) ∧
        s.setup.fetch = .fetching ∧ s.setup.failed = failed ∧ (s.setup.done + 1 < 64 ∨ 64 ≤ s.setup.done + 1) := by
  decide +kernel

theorem witness_TailWriteChecked :
    (∀ f ∈ [write 0x30008 [2, 0, 0, 0], write 0x30008 [64, 0, 0, 0], write 0x30008 [3, 0, 0, 0], write 0x3000B [0]],
      let s := forwarding f ring
      s.pass.granted = some (.forwarded f) ∧ f.access.write = true ∧ s.run.state ≠ .unset ∧ s.postOf f.access = none ∧
        s.isCommit f.access = false) ∧
    (2 < ring.cfg.reportSlots ∧
      (2 + 64 - ring.report.tail) % 64 ≤ (ring.report.visible + 64 - ring.report.tail) % 64) ∧
    ring.cfg.reportSlots ≤ 64 ∧
    (3 < ring.cfg.reportSlots ∧
      ¬(3 + 64 - ring.report.tail) % 64 ≤ (ring.report.visible + 64 - ring.report.tail) % 64) ∧
    (¬(0x3000B ≤ ring.cfg.controlBase + 8 ∧ ring.cfg.controlBase + 8 + 3 < 0x3000B + 1) ∧
      touches 0x3000B 1 (ring.cfg.controlBase + 8) 4) := by
  simp only [← overlaps_iff]
  decide +kernel

theorem witness_ForwardedWriteReturns :
    (∀ f ∈ [write 0 [1], write 0x10038 [1], write 0xFF8 [1], write 0x30008 [2, 0, 0, 0]],
      (forwarding f idle).pass.granted = some (.forwarded f) ∧ f.access.write = true) ∧
    (idle.postOf (write 0 [1]).access = none ∧ idle.isCommit (write 0 [1]).access = false ∧
      idle.touchesTail (write 0 [1]).access = false) ∧
    idle.postOf (write 0x10038 [1]).access ≠ none ∧ idle.isCommit (write 0xFF8 [1]).access = true ∧
    idle.touchesTail (write 0x30008 [2, 0, 0, 0]).access = true := by decide +kernel

theorem witness_ForwardedReadReturns :
    (∀ a ∈ [0x400240, 0x400280], ∀ s ∈ [idle, imaging],
      (forwarding (imagerRead a) s).pass.granted = some (.forwarded (imagerRead a)) ∧
        (imagerRead a).access.write = false ∧ (List.replicate 64 (1 : Byte)).length = (imagerRead a).access.len) ∧
    idle.image.current = none ∧ imaging.image.current = some current ∧ (imagerRead 0).cls = .imager ∧
    touches 0x400240 64 current.base current.len ∧ ¬touches 0x400280 64 current.base current.len := by
  simp only [← overlaps_iff]
  decide +kernel

theorem witness_SheetMark :
    current.mark = some { offset := 8, bytes := List.replicate 16 0xAA } ∧ (List.replicate 16 (0xAA : Byte)).length = 16 ∧
      16 ≤ current.stride ∧ current.base ≤ 0x4000C0 ∧ 23 < (List.replicate 64 (1 : Byte)).length ∧ 3 < 4 ∧ 15 < 16 ∧
      0x4000C0 + 23 - current.base = 8 + 3 * current.stride + 15 ∧
      (∀ k < 4, ∀ j < 16, 0x4000C0 + 24 - current.base ≠ 8 + k * current.stride + j) ∧ 4095 < 4096 := by
  decide +kernel

theorem witness_MarkExpansion :
    (markValue 0 4095 true .back).length = 8 ∧ 7 < (markValue 0 4095 true .back).length ∧
      (0xAA : Byte) ∈ expandMark [0xFF] := by decide +kernel

/-! ### Witnesses: orders -/

theorem witness_SlotReadIssues :
    (posted.run.state ≠ .unset ∧ posted.fetch.next ∈ posted.fetch.posted ∧ posted.fetch.inHand = none ∧
      posted.report.queue.length + (if posted.history.dump = none then 0 else 1) ≤ 5 ∧ posted.setup.fetch = .idle ∧
      (posted.fetch.deferred = true →
        posted.fetch.schedule.length ≤ 63 ∧
          ∀ x ∈ posted.heldSheets, (posted.fetch.counter - x.seq).toNat < 4194304) ∧
      posted.pass.own.length < 16) ∧ idle.fetch.next ∉ idle.fetch.posted := by decide +kernel

theorem witness_StalePostsDropped :
    (fetched idle).slotReturns = true ∧ byteAt (List.replicate 64 0) 56 ≠ 1 ∧
      (fetched idle).fetch.inHand = some (fetched idle).fetch.next ∧ (fetched idle).fetch.posted.Nodup := by
  decide +kernel

theorem witness_SheetOrderAccepted :
    let s := fetched idle
    s.slotReturns = true ∧ byteAt sheetOrder 56 = 1 ∧ byteAt sheetOrder 0 = 1 ∧ s.fetch.schedule.length < 64 ∧
      (∀ x ∈ s.heldSheets, (s.fetch.counter - x.seq).toNat < 4194304) ∧
      judgeSheet s.setup.base s.cfg s.fetch.openPiece sheetOrder = none := by decide +kernel

/-- The schedule queue holds 64 sheets. -/
def full : State := { idle with fetch := { idle.fetch with schedule := List.replicate 64 simplex, counter := 3101 } }

/-- The held sheet of the path lies 4,194,304 behind the counter. -/
def behind : State :=
  let s := tracking 10 [print 0 simplex] []
  { s with fetch := { s.fetch with counter := 4197404 } }

theorem witness_SheetOrderNotAccepted :
    (∀ s ∈ [fetched full, fetched behind, fetched idle], s.slotReturns = true) ∧ byteAt (sheetOrder.set 6 2) 56 = 1 ∧
      byteAt (sheetOrder.set 6 2) 0 = 1 ∧ 64 ≤ full.fetch.schedule.length ∧
      (∃ x ∈ behind.heldSheets, 4194304 ≤ (behind.fetch.counter - x.seq).toNat) ∧
      ¬(64 ≤ idle.fetch.schedule.length ∨ ∃ x ∈ idle.heldSheets, 4194304 ≤ (idle.fetch.counter - x.seq).toNat) := by
  decide +kernel

/-- The open piece after `simplex`. -/
def opened : OpenPiece :=
  { piece := 0x4410, lastIndex := 1, count := 1, output := .a, firstSeq := 3100, eligible := true }

/-- The tests of the statement SheetOrderNotAccepted, as that statement writes them, in the setup `cfg`. -/
def sheetTests (o : Option OpenPiece) (slot : List Byte) : List (Prop × RejectReason) :=
  let x := parseSheet 0 slot
  let zero (first after : Nat) := ∀ i, first ≤ i → i < after → byteAt slot i = 0
  let flag (bit : Nat) := (byteAt slot 1).testBit bit = true
  let raster (r : SideRec) :=
    r.base % 64 = 0 ∧ 64 ≤ r.len ∧ r.len ≤ 16777215 ∧ r.base + r.len ≤ 4294967296 ∧
      64 ≤ r.stride ∧ r.stride ≤ 65535 ∧ r.stride % 8 = 0 ∧ 1 ≤ r.image ∧ r.image ≤ x.length ∧
      (∀ q ∈ ownRegions 0 cfg, ¬touches r.base r.len q.1 q.2) ∧
      ∀ m, cfg.markEnable = true → r.mark = some m → m + (cfg.markLines - 1) * r.stride + 16 ≤ r.len
  [(byteAt slot 1 < 16 ∧ zero 5 6 ∧ zero 18 20 ∧ zero 52 56 ∧ (¬flag 1 → zero 36 52) ∧ (¬flag 2 → zero 32 36) ∧
      (¬flag 3 → zero 48 52), .field),
    (1000 ≤ x.length ∧ x.length ≤ 5000, .length),
    (∃ tray : Fin 4, byteAt slot 3 = tray.val + 1 ∧ (cfg.station (feedStation tray)).present = true, .tray),
    (byteAt slot 2 = 1 ∧ ¬flag 1 ∨ byteAt slot 2 = 2 ∧ flag 1 ∧ cfg.loopLength ≠ 0, .plex),
    (raster x.front ∧ ∀ b, x.back = some b → raster b, .raster),
    (byteAt slot 4 = 1 ∨ byteAt slot 4 = 2, .output),
    (1 ≤ x.index ∧ x.index ≤ 4095 ∧ (x.index = 4095 → x.last = true) ∧ (o = none → x.index = 1) ∧
      ∀ p, o = some p → x.piece = p.piece ∧ x.index = p.lastIndex + 1, .pieceOrder),
    (∀ p, o = some p → x.output = p.output, .outputMix)]

/-- For each test an order that fails it and passes those before it: a reserved byte, lengths 999 and 5,001, tray 5, DUPLEX
without a back side, a stride of 604, output 3, index 2 without an open piece, and STKB in an open piece of STKA. -/
theorem witness_SheetOrderNotAccepted_tests :
    ∀ c ∈ [(0, none, sheetOrder.set 5 1), (1, none, (sheetOrder.set 16 0xE7).set 17 3),
        (1, none, (sheetOrder.set 16 0x89).set 17 0x13), (2, none, sheetOrder.set 3 5), (3, none, sheetOrder.set 2 2),
        (4, none, sheetOrder.set 28 0x5C), (5, none, sheetOrder.set 4 3), (6, none, sheetOrder.set 6 2),
        (7, some opened, (sheetOrder.set 6 2).set 4 2)],
      (∀ p ∈ (sheetTests c.2.1 c.2.2).take c.1, p.1) ∧ ∃ p, (sheetTests c.2.1 c.2.2)[c.1]? = some p ∧ ¬p.1 := by
  have side (s : List Byte) : (∀ b, (parseSheet 0 s).back = some b → sideOk 0 cfg (parseSheet 0 s).length b = true) ↔
      (parseSheet 0 s).back.all (sideOk 0 cfg (parseSheet 0 s).length) = true := by
    cases (parseSheet 0 s).back <;> simp
  simp only [sheetTests, ← sheetReservedOk_iff, ← trayTest_iff, ← plexOk_iff, ← sideOk_iff, side, List.forall_mem_cons]
  simp only [List.take, List.forall_mem_cons, List.getElem?_cons_zero, List.getElem?_cons_succ, Option.some.injEq,
    exists_eq_left', List.not_mem_nil, false_implies, implies_true, and_true, reduceCtorEq, forall_eq', forall_const]
  and_intros <;> decide +kernel

theorem witness_AcceptedSheetIsSound :
    judgeSheet 1 cfg none sheetOrder = none ∧ judgeSheet 1 cfg (some opened) (sheetOrder.set 6 2) = none ∧
      cfg.markEnable = true ∧ (parseSheet 0 sheetOrder).front.mark = some 1200 := by decide +kernel

/-- A mask that enables no kind. -/
def disabling : State := fetched { idle with setup := { idle.setup with inForce := some { cfg with kindEnable := 0 } } }

theorem witness_ControlOrderJudged :
    disabling.slotReturns = true ∧ (fetched idle).slotReturns = true ∧
    (∀ k ∈ [0, 2, 3, 4, 5, 6, 7, 8, 9, 10], byteAt (order [BitVec.ofNat 8 k]) 56 = 1 ∧
      byteAt (order [BitVec.ofNat 8 k]) 0 = k ∧ (k < 1 ∨ 9 < k ∨ disabling.cfg.kindEnable.getLsbD k = false)) ∧
    (∀ k ∈ [2, 3, 4, 5, 6, 9],
      let slot := (order [BitVec.ofNat 8 k]).set 55 1
      byteAt slot 0 = k ∧ (fetched idle).cfg.kindEnable.getLsbD k = true ∧ byteAt slot 56 = 1 ∧ byteAt slot 55 ≠ 0) ∧
    (watchReservedOk (order [7, 0, 5, 1]) && watchFieldsOk cfg (order [7, 0, 5, 1])) = false ∧
    (dumpReservedOk (order [8]) && dumpFieldsOk 0 cfg (order [8])) = false := by decide +kernel

/-- The bytes of an order with no field are zero after its kind byte. -/
theorem bare_zero (k : Byte) (h : zeroBetween (order [k]) 1 56 = true) :
    ∀ i, 1 ≤ i → i < 56 → byteAt (order [k]) i = 0 := zero_of_zeroBetween _ _ _ h

theorem witness_LatchOrders :
    ((fetched running).slotReturns = true ∧ (fetched running).cfg.kindEnable.getLsbD 2 = true ∧
      (fetched running).cfg.kindEnable.getLsbD 4 = true) ∧
    (byteAt (order [2]) 56 = 1 ∧ byteAt (order [2]) 0 = 2 ∧ ∀ i, 1 ≤ i → i < 56 → byteAt (order [2]) i = 0) ∧
    (byteAt (order [4]) 56 = 1 ∧ byteAt (order [4]) 0 = 4 ∧ ∀ i, 1 ≤ i → i < 56 → byteAt (order [4]) i = 0) ∧
    (byteAt (order [3]) 56 = 1 ∧ byteAt (order [3]) 0 = 3 ∧ ∀ i, 1 ≤ i → i < 56 → byteAt (order [3]) i = 0) :=
  ⟨by decide +kernel, ⟨by decide, by decide, bare_zero 2 (by decide +kernel)⟩,
    ⟨by decide, by decide, bare_zero 4 (by decide +kernel)⟩, ⟨by decide, by decide, bare_zero 3 (by decide +kernel)⟩⟩

/-- STOPPED with a sheet standing at the REG sensor. -/
def occupied : State :=
  { stopped with
    expect := { stopped.expect with lines := stopped.expect.lines.set 4 { stable := true, change := none } } }

theorem stopped_clear : ∀ l : Fin 16,
    ¬(stopped.expect.lines[l].stable = true ∨ stopped.expect.lines[l].change ≠ none) := by decide +kernel

theorem witness_ClearedJudged :
    (byteAt (order [5]) 56 = 1 ∧ byteAt (order [5]) 0 = 5 ∧ ∀ i, 1 ≤ i → i < 56 → byteAt (order [5]) i = 0) ∧
    (∀ s ∈ [fetched idle, fetched stopped, fetched occupied], s.slotReturns = true) ∧ idle.run.state ≠ .stopped ∧
    (stopped.run.state = .stopped ∧
      ({ stopped with pins := { stopped.pins with cover := false } } : State).pins.cover = false) ∧
    (occupied.run.state = .stopped ∧ ∃ st, ∃ l : Fin 16, (occupied.cfg.station st).present = true ∧
      (occupied.cfg.station st).line = l.val ∧
        (occupied.expect.lines[l].stable = true ∨ occupied.expect.lines[l].change ≠ none)) ∧
    (stopped.pins.cover = true ∧ ¬∃ st, ∃ l : Fin 16, (stopped.cfg.station st).present = true ∧
      (stopped.cfg.station st).line = l.val ∧
        (stopped.expect.lines[l].stable = true ∨ stopped.expect.lines[l].change ≠ none)) :=
  ⟨⟨by decide, by decide, bare_zero 5 (by decide +kernel)⟩, by decide +kernel, by decide, by decide,
    ⟨by decide, .reg, 4, by decide +kernel⟩, by decide, fun ⟨_, l, _, _, h⟩ => stopped_clear l h⟩

/-- Bytes outside a field that ends at `hi`. -/
theorem outside_zero (slot : List Byte) (lo hi : Nat) (h1 : zeroBetween slot 1 lo = true)
    (h2 : zeroBetween slot hi 56 = true) : ∀ i, 1 ≤ i → i < 56 → ¬(lo ≤ i ∧ i < hi) → byteAt slot i = 0 := by
  intro i ha hb hc
  by_cases h : i < lo
  · exact zero_of_zeroBetween slot 1 lo h1 i ha h
  · exact zero_of_zeroBetween slot hi 56 h2 i (by omega) hb

/-- A CANCEL order of piece 0x4410. -/
def cancelOrder : List Byte := order [6, 0, 0, 0, 0x10, 0x44]

theorem witness_CancelAnswered :
    ((fetched twoHeld).slotReturns = true ∧ (fetched idle).slotReturns = true ∧ byteAt cancelOrder 56 = 1 ∧
      byteAt cancelOrder 0 = 6 ∧ (fetched twoHeld).cfg.kindEnable.getLsbD 6 = true) ∧
    (∀ i, 1 ≤ i → i < 56 → ¬(4 ≤ i ∧ i < 8) → byteAt cancelOrder i = 0) ∧
    (∃ x ∈ twoHeld.heldSheets, x.piece = BitVec.ofNat 32 (leAt cancelOrder 4 4)) ∧
    (idle.heldSheets = [] ∧ idle.track.piece = none) :=
  ⟨by decide +kernel, outside_zero _ 4 8 (by decide +kernel) (by decide +kernel), by decide +kernel, by decide +kernel⟩

/-- Piece 0x4410 with a sheet in the schedule queue, one in the path and one delivered. -/
def delivered : State :=
  { twoHeld with
    track :=
      { twoHeld.track with
        store := [{ simplex with seq := 3099 }]
        piece := some { piece := 0x4410, count := 1, firstSerial := 900999, lastSerial := 900999, committed := false } } }

theorem witness_CancelGivesUpPiece :
    delivered.launchesDistinct ∧ (∃ e ∈ delivered.track.path, (e.sheet.any fun x => x.piece == 0x4410) = true) ∧
      ∀ x ∈ delivered.track.store, ∃ r, delivered.track.piece = some r ∧ r.piece = x.piece := by
  refine ⟨by unfold State.launchesDistinct; decide +kernel, by decide +kernel, ?_⟩
  intro x hx
  obtain rfl := List.mem_singleton.mp hx
  exact ⟨_, rfl, rfl⟩

/-- W0 and W1 by their states. -/
def units (a b : UnitState) : State :=
  { running with
    watch :=
      { w0 := { program := some (program true), state := a, remaining := 1, hits := 0, first := none }
        w1 := { program := some (program true), state := b, remaining := 0, hits := 255, first := some hit } } }

theorem witness_WatchOrderAnswered :
    (∀ s ∈ [fetched (units .armed .spent), fetched (units .armed .waiting)], s.slotReturns = true ∧
      s.cfg.kindEnable.getLsbD 7 = true ∧ (watchReservedOk watchOrder && watchFieldsOk s.cfg watchOrder) = true ∧
      (watchReservedOk (order [7, 1]) && watchFieldsOk s.cfg (order [7, 1])) = true) ∧
    byteAt watchOrder 56 = 1 ∧ byteAt watchOrder 0 = 7 ∧ byteAt watchOrder 1 = unitCode .w1 ∧ byteAt watchOrder 2 ≠ 0 ∧
    byteAt (order [7, 1]) 1 = unitCode .w1 ∧ byteAt (order [7, 1]) 2 = 0 ∧
    (units .armed .spent).watch.w1.state = .spent ∧ (units .armed .waiting).watch.w1.state = .waiting := by
  decide +kernel

/-- A DUMP order of 32 entries to 0x700000. -/
def dumpOrder : List Byte := order [8, 0, 0, 0, 32, 0, 0, 0, 0, 0, 0x70, 0]

theorem witness_Dumps :
    (∀ s ∈ [fetched (dumping none), fetched idle, fetched history], s.slotReturns = true ∧
      s.cfg.kindEnable.getLsbD 8 = true ∧
      (dumpReservedOk dumpOrder && dumpFieldsOk s.setup.base s.cfg dumpOrder) = true) ∧
    byteAt dumpOrder 56 = 1 ∧ byteAt dumpOrder 0 = 8 ∧ (dumping none).history.dump ≠ none ∧
    (idle.history.dump = none ∧ idle.history.entries.length = 0) ∧
    (history.history.dump = none ∧ 0 < history.history.entries.length) ∧
    (∀ s ∈ [carrying (.dumpWrite 1) (dumping none), carrying (.dumpWrite 1) (dumping (some 0))],
      s.pass.granted = some (.own { kind := .dumpWrite 1, addr := 0x10000, len := 64, data := [] })) ∧
    ((dumping none).history.dump.map fun p =>
      decide (p.failed = none ∧ p.done + 1 = (p.snapshot.length + 3) / 4)) = some true ∧
    ((dumping (some 0)).history.dump.map fun p => decide (p.failed ≠ none ∧ p.done + 1 = p.issued)) = some true ∧
    ((after .dumpWriteComplete (carrying (.dumpWrite 0)
      (after (.dump dumpOrder) (fetched history)))).history.dump.map Dump.done) = some 1 := by decide +kernel

/-- A TALLY order of the serial 0x1E240. -/
def tallyOrder : List Byte := order [9, 0, 0, 0, 0, 0, 0, 0, 0x40, 0xE2, 1, 0]

theorem witness_TallyOrderAnswered :
    (byteAt tallyOrder 56 = 1 ∧ byteAt tallyOrder 0 = 9) ∧
    (∀ i, 1 ≤ i → i < 56 → ¬(8 ≤ i ∧ i < 12) → byteAt tallyOrder i = 0) ∧
    (∀ s ∈ [fetched idle, fetched twoHeld,
        fetched { idle with setup := { idle.setup with inForce := some { cfg with tallyEnable := false } } }],
      s.slotReturns = true ∧ s.cfg.kindEnable.getLsbD 9 = true) ∧
    ({ cfg with tallyEnable := false } : Setup).tallyEnable = false ∧
    (twoHeld.cfg.tallyEnable = true ∧ twoHeld.track.path ≠ []) ∧
    (idle.cfg.tallyEnable = true ∧ idle.track.path = []) :=
  ⟨by decide +kernel, outside_zero _ 8 12 (by decide +kernel) (by decide +kernel), by decide +kernel, rfl,
    by decide +kernel, by decide +kernel⟩

/-! ### Witnesses: own accesses -/

/-- A slot waits to be finished. -/
def finishing : State :=
  let s := fetched idle
  { s with fetch := { s.fetch with finish := some { post := postControl .ok, record := none, cancelOpen := false } } }

/-- The own-access FIFO is full. -/
def fifoFull : State :=
  { finishing with
    pass :=
      { finishing.pass with
        own := List.replicate 16 { kind := .slotRead, addr := 0x10000, len := 64, data := [] } } }

theorem witness_HandoverAndWriteback :
    ((carrying .postWrite idle).pass.granted =
      some (.own { kind := .postWrite, addr := 0x10000, len := 64, data := [] })) ∧
    16 ≤ fifoFull.pass.own.length ∧ finishing.pass.own.length < 16 ∧ finishing.fetch.finish ≠ none ∧
    idle.fetch.finish = none ∧
    (({ idle with setup := { idle.setup with fetch := .fetching, issued := 63 } } : State).setup.issued < 64) ∧
    (({ history with
        history :=
          { history.history with
            dump :=
              some
                { dest := 0x700000, unfreeze := false, snapshot := history.history.entries, held := 5, pos := 0, issued := 1
                  done := 0, failed := none } } } : State).history.dump.map fun d =>
        decide (d.failed = none ∧ d.issued < (d.snapshot.length + 3) / 4)) = some true ∧
    idle.history.dump = none ∧
    ({ idle with report := { idle.report with headWaits := true } } : State).report.headWaits = true ∧
    idle.setup.fetch ≠ .fetching ∧ 64 ≤ ({ idle with setup := { idle.setup with issued := 64 } } : State).setup.issued ∧
    (∀ failed ∈ [none, some 0], ((dumping failed).history.dump.map fun d =>
      decide (d.failed ≠ none ∨ (d.snapshot.length + 3) / 4 ≤ d.issued)) = some true) ∧
    (dumping none).pass.own.length < 16 ∧ idle.pass.own.length < 16 ∧ idle.report.headWaits = false := by
  decide +kernel

/-- A copy that fails a check: its byte `i` of block `b` is changed. -/
def spoilt (b i : Nat) (v : Byte) : List (List Byte) := copy.set b ((copy.getD b []).set i v)

theorem witness_SetupRefused :
    (∀ s ∈ [deciding State.reset, deciding twoHeld],
      s.setup.fetch = .deciding ∧ s.report.outstanding = none ∧ s.fetch.inHand = none) ∧
    twoHeld.run.state = .running ∧ State.reset.run.state = .unset ∧
    validate 0 (spoilt 63 58 1) = some .format ∧ validate 0 (spoilt 0 0 1) = some .region ∧
    validate 0 (spoilt 4 33 5) = some .geometry ∧ validate 0 (spoilt 1 4 0) = some .timing ∧
    validate 0 (spoilt 1 20 255) = none ∧ validate 0 (spoilt 1 17 0) = some .loop := by decide +kernel

/-- An open SETUP record of outcome BUSY. -/
def busy : SetupRec := { outcome := .busy, fetched := 0, inForce := 7, tally := Tally.zero, count := 255 }

/-- A setup is decided in IDLE with an open SETUP record behind another record. -/
def redeciding : State :=
  deciding
    { reporting 5 with
      report :=
        { (reporting 5).report with
          queue := (reporting 5).report.queue ++ [{ record := .setup busy, fixed := false }] } }

theorem witness_SetupAccepted :
    (∀ s ∈ [deciding State.reset, redeciding],
      s.setup.fetch = .deciding ∧ s.report.outstanding = none ∧ s.fetch.inHand = none ∧
        validate s.setup.base s.setup.copy = none ∧ s.pass.own.length < 16) ∧
    ((deciding State.reset).run.state = .unset ∧ (deciding State.reset).report.queue = []) ∧
    (redeciding.run.state = .idle ∧ redeciding.fetch.schedule = [] ∧ redeciding.fetch.openPiece = none ∧
      redeciding.track.store = [] ∧ redeciding.track.path = []) ∧
    redeciding.report.queue = (reporting 5).report.queue ++ { record := .setup busy, fixed := false } :: [] ∧
    ∀ q ∈ (reporting 5).report.queue, ∀ p, q ≠ { record := .setup p, fixed := false } := by
  refine ⟨by decide +kernel, by decide +kernel, by decide +kernel, rfl, ?_⟩
  intro q hq p h
  rw [List.mem_singleton.mp hq] at h
  cases h

theorem witness_ReportWrites :
    (let s := reporting 62;
      s.report.queue ≠ [] ∧ s.run.state ≠ .unset ∧ s.report.outstanding = none ∧
        (s.report.write + 1) % s.cfg.reportSlots ≠ s.report.tail ∧ s.setup.fetch ≠ .deciding ∧
        s.report.halted = false ∧ ¬(s.report.write ≠ s.report.head ∧ 4 ≤ s.report.sinceHead) ∧
        s.pass.own.length < 16) ∧
    ((reporting 63).report.write + 1) % (reporting 63).cfg.reportSlots = (reporting 63).report.tail ∧
    (let s := carrying .recordWrite
        { reporting 63 with report := { (reporting 63).report with outstanding := some .record } };
      s.pass.granted = some (.own { kind := .recordWrite, addr := 0x10000, len := 64, data := [] }) ∧
        s.report.outstanding = some .record ∧
        (s.report.queue.map Queued.record) = [.controlDone { slot := 3, kind := 2, result := .ok }]) ∧
    ((after (.systemReset 0) (watched true)).report.queue.map Queued.record) =
      [.watchHit { particulars := hit, hits := 2, carried := true }] ∧
    (let s : State := { idle with report := { idle.report with write := 0x103 } };
      s.run.state ≠ .unset ∧ s.report.outstanding = none ∧ s.setup.fetch ≠ .deciding ∧ s.report.halted = false ∧
        s.report.write ≠ s.report.head ∧ s.report.queue = [] ∧ s.pass.own.length < 16) ∧
    idle.report.write = idle.report.head ∧
    (carrying (.headWrite 5) idle).pass.granted =
      some (.own { kind := .headWrite 5, addr := 0x10000, len := 64, data := [] }) := by decide +kernel

theorem witness_OwnAccessFails :
    (∀ k ∈ [OwnKind.slotRead, .postWrite, .recordWrite, .headWrite 0, .setupRead 7],
      (carrying k idle).pass.granted = some (.own { kind := k, addr := 0x10000, len := 64, data := [] })) ∧
    (dumping none).history.dump ≠ none ∧
    (carrying (.dumpWrite 0) (dumping none)).pass.granted =
      some (.own { kind := .dumpWrite 0, addr := 0x10000, len := 64, data := [] }) ∧
    ∀ done ∈ [62, 63],
      let s : State := { idle with setup := { idle.setup with fetch := .fetching, done := done } }
      s.setup.fetch = .fetching ∧ (s.setup.done + 1 < 64 ∨ 64 ≤ s.setup.done + 1) := by decide +kernel

theorem witness_OwnAccessFails_stops :
    idle.run.state = .idle ∧ starting.run.state = .starting ∧ running.run.state = .running ∧ stopped.run.state = .stopped ∧
      State.reset.run.state = .unset := by decide +kernel

/-! ### Witnesses: the timebase and the lines -/

/-- Estimate mode is on. -/
def estimating (restored : Bool) : State :=
  { running with time := { running.time with estimate := true, restored := restored, acc := 15 } }

theorem witness_EncoderPulse :
    (running.time.estimate = false ∧ running.time.owed = 0 ∧ running.somethingDue = false) ∧
    (let s := tracking 100 [] [event .gap 100];
      s.time.estimate = false ∧ s.somethingDue = true) ∧
    (∀ b ∈ [false, true], (estimating b).time.estimate = true ∧ (estimating b).time.restored = b) := by decide +kernel

theorem witness_TickCounts :
    (running.timerExpires = false ∧ running.declaresLoss = false ∧ running.time.estimate = false) ∧
      (estimating false).timerExpires = false ∧ (estimating false).declaresLoss = false ∧
      (estimating false).time.estimate = true := by decide +kernel

/-- The same loss with the loss action STOP. -/
def silentStop : State := { silent with setup := { silent.setup with inForce := some { cfg with lossAction := .stop } } }

theorem witness_DeclaringTicks :
    (∀ s ∈ [silent, silentStop], s.run.state = .running ∧ s.pins.tready = true ∧ s.time.estimate = false ∧
      s.time.pulsed = false ∧ s.cfg.lossLimit ≤ s.time.silence + 1) ∧
    silentStop.cfg.lossAction = .stop ∧ silent.cfg.lossAction = .drain ∧ ¬idle.cfg.lossLimit ≤ idle.time.silence + 1 ∧
    (starting.run.timer = some 99 ∧ starting.run.state = .starting ∧ 100 * starting.cfg.startLimit ≤ 99 + 1) ∧
    (({ starting with run := { starting.run with timer := some 98 } } : State).run.timer = some 98 ∧
      ¬100 * starting.cfg.startLimit ≤ 98 + 1) := by decide +kernel

theorem witness_InputLines :
    (starting.pins.tready = false ∧ starting.run.state = .starting) ∧
    (waiting.pins.tready = false ∧ waiting.run.state ≠ .starting ∧ waiting.pins.cover = false) ∧
    (running.pins.tready = true ∧ running.run.state = .running ∧ running.pins.cover = true) ∧
    (idle.pins.tready = true ∧ idle.run.state ≠ .running ∧ idle.run.state ≠ .draining ∧ idle.pins.cover = true ∧
      idle.run.state ≠ .starting) ∧
    (∀ t : Fin 4, idle.pins.trayrdy[t] ≠ true) ∧ idle.pins.stkfullA ≠ true ∧ idle.pins.stkfullB ≠ true := by
  decide +kernel

/-- A piece in PIECE mode with its first sheet delivered and its second in the path. -/
def breaking : State :=
  { tracking 10 [print 0 { simplex with index := 2 }] [] with
    track :=
      { (tracking 10 [print 0 { simplex with index := 2 }] []).track with
        store := [{ simplex with seq := 3099 }]
        piece := some { piece := 0x4410, count := 1, firstSerial := 900999, lastSerial := 900999, committed := false } }
    fetch := { idle.fetch with counter := 3101 } }

/-- W0 freezes the history at the first SPOIL event. -/
def freezing : State :=
  { ordered with
    watch :=
      { ordered.watch with
        w0 :=
          { program :=
              some { source := .sheet .spoil none none, count := 0, afterW0 := false, action := .freeze, keep := false }
            state := .armed, remaining := 0, hits := 0, first := none } } }

theorem test_stop_history :
    ((stop .late (some .xfer) 481 (some 0) (some 901000) ordered).history.entries.map fun x => (x.kind, x.seq)) =
        (ordered.track.path.map fun e => (.spoil .stop, some e.ident.seq)) ++ [(.stop .late, none)] ∧
      ((stop .late (some .xfer) 481 (some 0) (some 901000) freezing).history.entries.map fun x => (x.kind, x.seq)) =
        [(.spoil .stop, some 3100)] := by decide +kernel

theorem witness_StopHaltsAndReports :
    (idle.run.state = .idle ∧ starting.run.state = .starting ∧ ordered.run.state = .running) ∧
    ordered.recover.lock = false ∧
    (ordered.history.frozen = false ∧ (stop .late none 481 (some 0) none ordered).history.frozen = false ∧
      freezing.history.frozen = false ∧ (stop .late none 481 (some 0) none freezing).history.frozen = true) ∧
    ordered.run.hold = true ∧ ordered.track.store = [] ∧ ordered.sheetsInOrder ∧
    (breaking.run.state = .running ∧ breaking.recover.lock = false ∧ breaking.sheetsInOrder ∧
      breaking.cfg.recovery = .piece ∧ breaking.track.store.head? = some { simplex with seq := 3099 } ∧
      (breaking.track.piece.map StackerPiece.committed) = some false ∧
      ∃ e ∈ breaking.track.path, e.sheet ≠ none ∧ e.ident.piece = 0x4410 ∧
        e.ident.seq = 3099 + BitVec.ofNat 24 e.ident.index - 1) := by
  unfold State.sheetsInOrder; decide +kernel

/-- An expectation whose expiry the pending change of line 5 holds, among other items. -/
def held : State :=
  let s := debouncing [event .gap 481, expects 0 .xfer .le 440, event (.div 0) 1500]
  { s with
    time := { s.time with pos := 481 }, pins := { s.pins with sensors := s.pins.sensors.set 5 true }
    expect :=
      { s.expect with lines := s.expect.lines.set 5 { stable := false, change := some { level := true, stamp := 480 } } } }

theorem witness_SensorLineChanges :
    (idle.pins.sensors[(1 : Fin 16)] ≠ true ∧ idle.stationOf 1 = none) ∧
    (let s := tracking 100 [] [];
      s.pins.sensors[(5 : Fin 16)] ≠ true ∧ s.stationOf 5 = some .xfer ∧ s.expect.lines[(5 : Fin 16)].change = none ∧
        true ≠ s.expect.lines[(5 : Fin 16)].stable ∧ s.cfg.debounce ≠ 0) ∧
    (let s : State := { running with pins := { running.pins with sensors := running.pins.sensors.set 5 true } };
      s.pins.sensors[(5 : Fin 16)] ≠ false ∧ s.stationOf 5 = some .xfer ∧ s.expect.lines[(5 : Fin 16)].change = none ∧
        false = s.expect.lines[(5 : Fin 16)].stable) ∧
    ({ cfg with debounce := 0 } : Setup).debounce = 0 ∧
    (held.pins.sensors[(5 : Fin 16)] ≠ false ∧ held.stationOf 5 = some .xfer ∧
      held.expect.lines[(5 : Fin 16)].change ≠ none ∧
      held.expect.items = [event .gap 481] ++ expects 0 .xfer .le 440 :: [event (.div 0) 1500] ∧
      (event .gap 481).awaits .xfer .le = false ∧ (event .gap 481).awaits .xfer .te = false ∧
      (expects 0 .xfer .le 440).awaits .xfer .le = true ∧ held.reached (expects 0 .xfer .le 440).due = true ∧
      held.holdsExpiry (expects 0 .xfer .le 440) = true) ∧
    (let s := debouncing [expects 0 .xfer .le 500];
      s.pins.sensors[(5 : Fin 16)] ≠ true ∧ s.expect.lines[(5 : Fin 16)].change ≠ none ∧
        ∀ i ∈ s.expect.items, s.reached i.due = false) := by
  decide +kernel

theorem witness_DebounceCompletes :
    (∀ s ∈ [debouncing [], debouncing [expects 0 .xfer .le 500], debouncing [expects 0 .xfer .le 440],
        { debouncing [] with run := { running.run with state := .starting } }],
      s.stationOf 5 = some .xfer ∧ s.expect.lines[(5 : Fin 16)].change = some { level := true, stamp := 460 } ∧
        s.reached (plus 460 s.cfg.debounce) = true) ∧
    ({ debouncing [] with run := { running.run with state := .starting } } : State).moving = false ∧
    ((debouncing []).moving = true ∧ (debouncing []).expect.items.filter (Item.awaits .xfer .le) = []) ∧
    (∀ it ∈ [expects 0 .xfer .le 500, expects 0 .xfer .le 440],
      firstClaimant ((debouncing [it]).expect.items.filter (Item.awaits .xfer .le)) = some it ∧
        (debouncing [it]).entry? 0 = some (print 0 simplex)) ∧
    (expects 0 .xfer .le 440).inWindow 460 = true ∧ (expects 0 .xfer .le 500).inWindow 460 = false ∧
    before 460 (expects 0 .xfer .le 500).opens = true ∧ (debouncing []).time.estimate = false ∧
    ((expects 0 .xfer .le 500).opens ≠ (expects 1 .xfer .le 440).opens ∧
      ((expects 0 .xfer .le 500).opens - (expects 1 .xfer .le 440).opens).toNat < 8388608) ∧
    ((expects 32767 .xfer .le 440).opens = (expects 0 .xfer .le 440).opens ∧ 1 ≤ ((32767 : Launch) - 0).toNat ∧
      ((32767 : Launch) - 0).toNat ≤ 32767) := by decide +kernel

/-! ### Witnesses: items that fall due, the path and the planner -/

theorem witness_DueItemsTaken :
    (∀ it ∈ [expects 0 .xfer .le 450, event (.park 0) 491, event .gap 491, event .idle 491],
      let s := tracking 491 [print 0 duplex] [it]
      s.expect.items = [] ++ it :: [] ∧ s.reached it.due = true ∧ s.holdsExpiry it = false ∧
        s.entry? 0 = some (print 0 duplex) ∧ s.run.state = .running) ∧
    (∀ k ∈ [ItemKind.edge 0 .xfer .le, .div 0, .park 0, .top 0, .check 0, .idle],
      ∀ i ∈ held.expect.items, i.kind = k → held.reached i.due = false ∨ held.holdsExpiry i = true) ∧
    ∀ i ∈ (tracking 480 [] [event .gap 481]).expect.items,
      i.kind = .gap → (tracking 480 [] [event .gap 481]).reached i.due = false := by decide +kernel

theorem witness_DivRoutes :
    (∀ x ∈ [simplex, duplex],
      let s := tracking 1500 [print 0 x] [event (.div 0) 1500]
      s.expect.items = [] ++ event (.div 0) 1500 :: [] ∧ s.reached 1500 = true ∧ s.entry? 0 = some (print 0 x)) ∧
    isReset (.powerOnReset 0) = true ∧ isReset .tick = false ∧ (∃ t, exec .tick idle = .next t) ∧
    ∃ t, exec (.powerOnReset 0) idle = .next t :=
  ⟨by decide +kernel, rfl, rfl, ⟨_, rfl⟩, ⟨_, rfl⟩⟩

theorem witness_SideImagedAndChecked :
    (let s := tracking 600 [print 0 simplex] [event (.top 0) 600];
      s.expect.items = [] ++ event (.top 0) 600 :: [] ∧ s.reached 600 = true ∧ s.entry? 0 = some (print 0 simplex) ∧
        (print 0 simplex).sheet = some simplex ∧ (print 0 simplex).leg = .first) ∧
    ({ print 0 duplex with leg := .second }.leg = .second ∧ duplex.back = some (side 0x800000)) ∧
    (∀ n ∈ [639, 640],
      let s := checking n
      s.expect.items = [] ++ event (.check 0) 2750 :: [] ∧ s.reached 2750 = true ∧
        s.entry? 0 = some (print 0 simplex) ∧ s.image.current = some { current with progress := n } ∧
        ({ current with progress := n } : CurrentSide).launch = 0) ∧ current.len = 640 := by decide +kernel

/-- A parked duplex sheet at the head of the loop, and the schedule queue `q`. -/
def parked (ph : Phase) (q : List LogicalSheet) : State :=
  let s := tracking 100 [{ print 0 duplex with phase := ph }] []
  { s with
    track := { s.track with loop := [0] }, fetch := { s.fetch with schedule := q }
    plan := { s.plan with commitment := 2300 }
    pins := { s.pins with trayrdy := s.pins.trayrdy.set 0 true } }

theorem witness_MetEdgesAdvanceEntries :
    ({ print 0 duplex with phase := .feeding }.phase = .feeding ∧ (print 0 duplex).divTaken = false) ∧
    (∀ s ∈ [tracking 460 [print 0 duplex] [], tracking 5000 [print 0 duplex] []],
      (print 0 duplex).releasePos = some 0 ∧ s.expect.items = []) ∧
    ((tracking 460 [] []).reached (expects 0 .fuse .le 1200).due = false ∧
      (tracking 5000 [] []).reached (expects 0 .fuse .le 1200).due = true ∧
      (tracking 5000 [] []).holdsExpiry (expects 0 .fuse .le 1200) = false) ∧
    ({ print 0 duplex with divTaken := true, route := some .loop }.divTaken = true ∧
      { print 0 duplex with divTaken := true, route := some .loop }.route = some .loop) ∧
    Station.loopout ∈ [Station.feed1, .feed2, .feed3, .feed4, .loopout] ∧
    ({ print 0 duplex with phase := .parking }.phase = .parking ∧ (tracking 300 [] []).reached (0 + 300) = true ∧
      (tracking 299 [] []).reached (0 + 300) = false) ∧
    (parked .refeeding []).track.loop = (print 0 duplex).launch :: [] ∧
    (PathEntry.detachedAs .cascade (print 0 simplex)).sheet = none ∧
    (PathEntry.detachedAs .cascade (print 0 simplex)).reason = some .cascade := by decide +kernel

theorem witness_DeliveryCountsAndCompletes :
    (∀ last ∈ [false, true], (print 0 { simplex with last := last }).sheet = some { simplex with last := last } ∧
      (print 0 { simplex with last := last }).serial = some 901000) ∧
    delivered.cfg.recovery = .piece ∧ ({ cfg with recovery := .sheet } : Setup).recovery = .sheet ∧
    (delivered.track.piece.map fun r => (r.piece, r.committed)) = some (simplex.piece, false) ∧
    delivered.track.store.length ≤ 31 ∧ 32 ≤ (List.replicate 32 simplex).length ∧
    (let r : StackerPiece :=
        { piece := 0x4410, count := 33, firstSerial := 900967, lastSerial := 900999, committed := true };
      r.piece = simplex.piece ∧ r.committed = true) ∧
    (∃ t, exec (.systemReset 0) delivered = .next t) ∧ ∃ t, exec (.powerOnReset 0) delivered = .next t :=
  ⟨by decide +kernel, rfl, rfl, rfl, by decide +kernel, by decide +kernel, by decide +kernel, ⟨_, rfl⟩, ⟨_, rfl⟩⟩

theorem witness_PlannerLaunches :
    (∀ s ∈ [parked .parked [], parked .travel [simplex], parked .parked [{ duplex with seq := 3102 }],
        after (.trayrdyChange 0 true) ready, ready],
      s.run.hold = false ∧ s.occupancy ≤ 5 ∧ s.run.state = .running) ∧
    (∀ s ∈ [parked .parked [], parked .travel [simplex], parked .parked [{ duplex with seq := 3102 }], ready],
      s.plan.staged = none) ∧
    (after (.trayrdyChange 0 true) ready).plan.staged ≠ none ∧
    ((parked .parked []).track.loop = [0] ∧ (parked .parked []).fetch.schedule.head? = none ∧
      (parked .parked []).entry? 0 = some { print 0 duplex with phase := .parked } ∧
      (parked .parked []).stackerFull .a = false ∧
      (after (.stkfullChange .a true) (parked .travel [])).stackerFull .a = true) ∧
    ((parked .travel [simplex]).fetch.schedule.head? = some simplex ∧ simplex.plex = .simplex ∧
      (parked .travel [simplex]).entry? 0 = some { print 0 duplex with phase := .travel }) ∧
    (let s := parked .parked [{ duplex with seq := 3102 }];
      s.cfg.loopLength ≠ 0 ∧ s.plan.commitment + 2100 + s.cfg.loopGap ≤ s.cfg.loopLength ∧
        s.eligible { duplex with seq := 3102 } = true) ∧
    (ready.track.loop = [] ∧ ready.fetch.schedule = [simplex] ∧ ready.eligible simplex = false) ∧
    (let s : State := { ready with pins := { ready.pins with trayrdy := ready.pins.trayrdy.set 0 true } };
      s.plan.staged = none ∧ s.eligible simplex = true ∧ s.track.loop = []) ∧
    (running.track.loop = [] ∧ running.fetch.schedule = []) := by decide +kernel

theorem witness_LaunchesMoveSheets :
    ready.fetch.schedule = [simplex] ∧ (parked .parked []).fetch.schedule = [] ∧
      { print 0 duplex with phase := .parked } ∈ (parked .parked []).track.path ∧
      (parked .parked []).launchesDistinct := by
  unfold State.launchesDistinct; decide +kernel

/-- An entry staged at the gate, with the gap flag `gap`. -/
def atGate (gap : Bool) : State :=
  let s := tracking 100 [{ print 0 simplex with phase := .atGate, serial := none, releasePos := none }] []
  { s with plan := { s.plan with staged := some 0, gapMet := gap } }

theorem witness_GateReleases :
    ∀ gap ∈ [false, true],
      (atGate gap).plan.staged = some 0 ∧
        (atGate gap).entry? 0 = some { print 0 simplex with phase := .atGate, serial := none, releasePos := none } ∧
        ((atGate gap).track.path.map PathEntry.launch).Nodup ∧ (atGate gap).plan.gapMet = gap ∧
        (atGate gap).run.hold = false ∧ (atGate gap).run.state = .running ∧ (atGate gap).plan.lastStacker = none ∧
        (atGate gap).history.frozen = false := by
  decide +kernel

/-- The event that `program` counts. -/
def edgeEvent : HitItem :=
  .sheet { kind := .le, station := some .reg, piece := 0x4410, launch := 0, seq := some 3100, serial := none }

/-- W0 is about to fire and W1 waits for it. -/
def firing : State :=
  { units .armed .waiting with
    watch :=
      { (units .armed .waiting).watch with w0 := { (units .armed .waiting).watch.w0 with remaining := 0 } } }

theorem witness_WatchUnitsCount :
    matchesItem (program true) edgeEvent = true ∧ (program true).source = .sheet .le none none ∧
    (∀ a ∈ [UnitState.spent, .armed], ∀ b ∈ [UnitState.waiting, .armed],
      (units a b).watch.w0.program = some (program true) ∧ (units a b).watch.w1.program = some (program true) ∧
        (units a b).watch.w0.state = a ∧ (units a b).watch.w1.state = b ∧ 0 < (units a b).watch.w0.remaining ∧
        (units a b).watch.w1.remaining = 0) ∧
    (firing.watch.w0.state = .armed ∧ firing.watch.w0.program = some (program true) ∧ firing.watch.w0.remaining = 0 ∧
      firing.watch.w1.state = .waiting ∧ firing.watch.w1.program = some (program true) ∧ firing.report.queue = []) ∧
    ((after (.systemReset 0) (watched true)).report.queue.map fun q => (q.record, q.fixed)) =
      [(.watchHit { particulars := hit, hits := 2, carried := true }, false)] ∧ hit.unit = .w0 := by decide +kernel

theorem witness_Resets :
    (∃ p, ((watched true).watch.unit .w0).program = some p ∧ p.keep = true) ∧
    ((watched true).watch.unit .w1).program = none ∧ (dumping none).history.frozen = true ∧
    history.history.frozen = false ∧ 0 < ((watched true).watch.unit .w0).hits ∧
    ((watched true).watch.unit .w0).first = some hit :=
  ⟨⟨_, rfl, rfl⟩, rfl, rfl, rfl, by decide, rfl⟩

end Sys2Proof.Tests
end

section
/-! Stale posts (R4): the stale read's exact effect, and why the slot is not read again. The posted-slot map holds an index
once, so one removal takes it out, and a slot outside the map is never fetched (R2). -/

namespace Sys2Proof.Machine

/-! ### The slot in hand -/

theorem slotPosted_eq_false_iff (slot : List Byte) : slotPosted slot = false ↔ byteAt slot 56 ≠ 1 := by
  simp [slotPosted]

theorem slotIndex_of_inHand {s : State} {i : Nat} (h : s.fetch.inHand = some i) : s.slotIndex = i := by
  simp [State.slotIndex, h]

/-! ### STALE_POST and SLOT_READ_ISSUE -/

theorem exec_stalePost (slot : List Byte) (s : State) : exec (.stalePost slot) s = execStalePost slot s := rfl

theorem exec_slotReadIssue (s : State) : exec .slotReadIssue s = execSlotReadIssue s := rfl

/-- A returned slot that is not POSTED is dropped, with the port free again (R4). -/
theorem exec_stalePost_of_not_posted {s : State} {slot : List Byte} (hret : s.slotReturns = true)
    (hpost : slotPosted slot = false) : exec (.stalePost slot) s = .next (dropStale (freePort (begin s))) := by
  simp [exec_stalePost, execStalePost, hret, hpost]

/-- R2 asks for the next slot in the posted-slot map. -/
theorem next_mem_posted_of_mayFetch {s : State} (h : s.mayFetch = true) : s.fetch.next ∈ s.fetch.posted := by
  simp only [State.mayFetch, Bool.and_eq_true, List.contains_iff_mem] at h
  obtain ⟨⟨⟨⟨⟨⟨_, hmem⟩, _⟩, _⟩, _⟩, _⟩, _⟩ := h
  exact hmem

/-- With the next slot outside the map no slot read is issued, whatever else the state holds (R2). -/
theorem exec_slotReadIssue_of_next_not_mem {s : State} (h : s.fetch.next ∉ s.fetch.posted) :
    exec .slotReadIssue s = .next s := by
  have hmay : ¬s.mayFetch = true := fun hm => h (next_mem_posted_of_mayFetch hm)
  simp [exec_slotReadIssue, execSlotReadIssue, hmay]

end Sys2Proof.Machine

open Sys2Proof Sys2Proof.Machine

/-- Settles O27: the drop is computed exactly; the index in hand is the next slot's, and erasing it from a map without
duplicates leaves the next slot outside the map, where the condition of R2 fails. -/
theorem stalePostsDropped : Obligations.StalePostsDropped := by
  intro s slot hret hbyte t
  refine ⟨exec_stalePost_of_not_posted hret ((slotPosted_eq_false_iff slot).mpr hbyte), fun hhand hnodup => ?_⟩
  have hgone : s.fetch.next ∉ t.fetch.posted := by
    change s.fetch.next ∉ s.fetch.posted.erase s.slotIndex
    rw [slotIndex_of_inHand hhand]
    exact hnodup.not_mem_erase
  refine ⟨hgone, fun u hnext hposted => exec_slotReadIssue_of_next_not_mem ?_⟩
  rw [hnext, hposted]
  exact hgone

end

section
/-! The diverter (R78 to R80): the exact effect of a DIV event, and the two jog lines, which no other command moves
(R79). -/

namespace Sys2Proof.Machine

/-! ### Items that are due -/

/-- A DIV item is due at its own position, and no pending change holds it (R34). -/
theorem itemDue_of_div {s : State} {it : Item} {l : Launch} (hk : it.kind = .div l) :
    s.itemDue it = s.reached it.pos := by
  simp [State.itemDue, State.holdsExpiry, Item.due, Item.isEdge, hk]

/-- The first item of its kind is the one that a command of this kind takes, once it is due (R33). -/
theorem dueItem_of_first {s : State} {pre post : List Item} {it : Item} (hi : s.expect.items = pre ++ it :: post)
    (hfirst : ∀ i ∈ pre, i.kind ≠ it.kind) (hdue : s.itemDue it = true) : s.dueItem it.kind = some it := by
  have hpre : pre.find? (fun i => i.kind == it.kind && s.itemDue i) = none := by
    rw [List.find?_eq_none]
    intro i him
    simp [hfirst i him]
  simp [State.dueItem, hi, List.find?_append, hpre, hdue]

/-- The first item of its kind that leaves the list leaves the items around it in place (R33). -/
theorem dropItem_of_first {s : State} {pre post : List Item} {it : Item} (hi : s.expect.items = pre ++ it :: post)
    (hfirst : ∀ i ∈ pre, i.kind ≠ it.kind) :
    dropItem it s = { s with expect := { s.expect with items := pre ++ post } } := by
  have hnot : it ∉ pre := fun hm => hfirst it hm rfl
  simp [dropItem, hi, List.erase_append_right _ hnot]

theorem launch_of_entry? {s : State} {l : Launch} {x : PathEntry} (h : s.entry? l = some x) : x.launch = l := by
  simpa using List.find?_some h

/-! ### The DIV event -/

/-- With the jog enable clear no jog line changes (R79). -/
theorem jog_of_disabled (e : PathEntry) (r : Route) (s : State) (h : s.cfg.jogEnable = false) : jog e r s = s := by
  simp [jog, h]

/-- With the enable set, an attached entry of index 1 changes the jog line of the stacker it is routed to (R79). -/
theorem jog_eq (e : PathEntry) (r : Route) (s : State) :
    let jogs := s.cfg.jogEnable = true ∧ e.sheet ≠ none ∧ e.ident.index = 1
    jog e r s =
      { s with
        track :=
          { s.track with
            jogA := if jogs ∧ r = .stka then !s.track.jogA else s.track.jogA
            jogB := if jogs ∧ r = .stkb then !s.track.jogB else s.track.jogB } } := by
  intro jogs
  have hcond : (s.cfg.jogEnable && e.attached && e.ident.index == 1) = true ↔ jogs := by
    simp [jogs, PathEntry.attached, Option.isSome_iff_ne_none, and_assoc]
  by_cases h : jogs
  · cases r <;> simp only [jog, hcond.mpr h, h, true_and, if_true, if_false, reduceCtorEq]
  · simp only [jog, mt hcond.mp h, h, false_and, if_false, Bool.false_eq_true]

/-- The state with an entry routed: its route and DIV-taken flag, DIVSEL, and the jog line of its stacker (R78, R79). -/
def State.routed (e : PathEntry) (r : Route) (s : State) : State :=
  let jogs := s.cfg.jogEnable = true ∧ e.sheet ≠ none ∧ e.ident.index = 1
  { s with
    track :=
      { s.track with
        path := s.track.path.map fun x => if x.launch = e.launch then { x with route := some r, divTaken := true } else x
        divsel := r
        jogA := if jogs ∧ r = .stka then !s.track.jogA else s.track.jogA
        jogB := if jogs ∧ r = .stkb then !s.track.jogB else s.track.jogB } }

/-- A DIV event routes its entry, and arms the terminal LE when the FUSE LE is met already (R78, R80). -/
theorem divert_eq (e : PathEntry) (s : State) :
    divert e s =
      if e.fuseReached then armTerminal e (routeOf e) (s.routed e (routeOf e)) else s.routed e (routeOf e) := by
  simp only [divert, jog_eq]
  rfl

/-- A DIV item that is due takes its entry over the diverter (R34, R78). -/
theorem exec_div_of_due {s : State} {pre post : List Item} {it : Item} {l : Launch} {x : PathEntry}
    (hi : s.expect.items = pre ++ it :: post) (hfirst : ∀ i ∈ pre, i.kind ≠ it.kind) (hk : it.kind = .div l)
    (hpos : s.reached it.pos = true) (hx : s.entry? l = some x) :
    exec (.div l) s =
      .next (settle (divert x { s with out := [], expect := { s.expect with items := pre ++ post } })) := by
  have hdue : s.dueItem (.div l) = some it := by
    rw [← hk]
    exact dueItem_of_first hi hfirst (by rw [itemDue_of_div hk, hpos])
  have hdrop : dropItem it (begin s) = { begin s with expect := { s.expect with items := pre ++ post } } :=
    dropItem_of_first (s := begin s) hi hfirst
  change execDiv l s = _
  simp only [execDiv, hdue, hx, hdrop]
  rfl

/-! ### The jog lines over every command -/

/-- The levels of JOGA and JOGB. -/
def State.jogs (s : State) : Bool × Bool := (s.track.jogA, s.track.jogB)

@[simp] theorem jogs_eq_iff (s t : State) :
    t.jogs = s.jogs ↔ t.track.jogA = s.track.jogA ∧ t.track.jogB = s.track.jogB := by
  simp [State.jogs]

theorem divert_jogs_of_disabled (e : PathEntry) (s : State) (h : s.cfg.jogEnable = false) :
    (divert e s).jogs = s.jogs := by
  rw [divert_eq]
  split <;> simp [State.routed, h]

theorem exec_div_jogs_of_disabled {l : Launch} {s t : State} (h : exec (.div l) s = .next t)
    (hoff : s.cfg.jogEnable = false) : t.jogs = s.jogs := by
  injection h with h
  subst h
  split
  · next it e _ _ =>
    have hdiv := divert_jogs_of_disabled e (dropItem it (begin s)) (by simpa [State.cfg] using hoff)
    simpa using hdiv
  · rfl

/-- A control order moves no jog line that the work of its owning block leaves (R18). -/
theorem controlOrder_jogs (wf : Bool) (work : State → State × ControlResult) (slot : List Byte) (s : State)
    (hw : ∀ t, (work t).1.jogs = t.jogs) : (controlOrder wf work slot s).jogs = s.jogs :=
  controlOrder_keeps State.jogs wf work slot s (by simp) (by simp) (by simp) hw

/-- The jog lines stay over the return of an order whose handling leaves them. -/
theorem onOrder_jogs (k : Nat) (slot : List Byte) (body : State → State) (s : State)
    (hb : ∀ t, (body t).jogs = t.jogs) : (onOrder k slot body s).jogs = s.jogs :=
  onOrder_keeps State.jogs k slot body s (by simp) (by simp) hb

theorem holdWork_jogs (s : State) : (holdWork s).1.jogs = s.jogs := rfl

theorem resumeWork_jogs (s : State) : (resumeWork s).1.jogs = s.jogs := by
  simp only [resumeWork]
  split <;> simp

theorem standbyWork_jogs (s : State) : (standbyWork s).1.jogs = s.jogs := by
  simp only [standbyWork]
  split <;> simp

theorem clearedWork_jogs (s : State) : (clearedWork s).1.jogs = s.jogs := by
  simp only [clearedWork]
  (repeat' split) <;> simp

theorem cancelWork_jogs (p : PieceId) (s : State) : (cancelWork p s).1.jogs = s.jogs := by
  simp only [cancelWork]
  split <;> simp

theorem watchWork_jogs (slot : List Byte) (s : State) : (watchWork slot s).1.jogs = s.jogs := by
  simp only [watchWork]
  (repeat' split) <;> simp

theorem dumpWork_jogs (slot : List Byte) (s : State) : (dumpWork slot s).1.jogs = s.jogs := by
  simp only [dumpWork]
  (repeat' split) <;> simp

theorem tallyWork_jogs (serial : Serial) (s : State) : (tallyWork serial s).1.jogs = s.jogs := by
  simp only [tallyWork]
  (repeat' split) <;> simp

/-- A reset brings both jog lines low (R79, R153). -/
theorem exec_jogs_of_isReset {c : Instr} {s t : State} (h : exec c s = .next t) (hr : isReset c = true) :
    t.jogs = (false, false) := by
  cases c
  case systemReset | powerOnReset =>
    injection h with h
    subst h
    rfl
  all_goals simp [isReset] at hr

/-- No command but DIV and the resets moves a jog line (R79). An order does what its handling does; any other command
does not occur, or does its named operations, none of which moves a jog line. -/
theorem exec_jogs_of_not_div {c : Instr} {s t : State} (h : exec c s = .next t) (hr : isReset c = false)
    (hd : ∀ l, c ≠ .div l) : t.jogs = s.jogs := by
  cases c
  case div l => exact absurd rfl (hd l)
  case systemReset | powerOnReset => exact absurd hr (by simp [isReset])
  all_goals
    clear hr hd
    injection h with h
    subst h
  case sheet slot => exact onOrder_jogs _ _ _ _ (by simp)
  case hold slot => exact onOrder_jogs _ _ _ _ fun t => controlOrder_jogs _ _ _ t holdWork_jogs
  case resume slot => exact onOrder_jogs _ _ _ _ fun t => controlOrder_jogs _ _ _ t resumeWork_jogs
  case standby slot => exact onOrder_jogs _ _ _ _ fun t => controlOrder_jogs _ _ _ t standbyWork_jogs
  case cleared slot => exact onOrder_jogs _ _ _ _ fun t => controlOrder_jogs _ _ _ t clearedWork_jogs
  case cancel slot => exact onOrder_jogs _ _ _ _ fun t => controlOrder_jogs _ _ _ t (cancelWork_jogs _)
  case watch slot => exact onOrder_jogs _ _ _ _ fun t => controlOrder_jogs _ _ _ t (watchWork_jogs slot)
  case dump slot => exact onOrder_jogs _ _ _ _ fun t => controlOrder_jogs _ _ _ t (dumpWork_jogs slot)
  case tally slot => exact onOrder_jogs _ _ _ _ fun t => controlOrder_jogs _ _ _ t (tallyWork_jogs _)
  all_goals (repeat' split) <;> simp

end Sys2Proof.Machine

open Sys2Proof Sys2Proof.Machine

/-- Settles O52: the jog lines by a frame lemma over every command but DIV, a DIV event by its exact next state. -/
theorem divRoutes : Obligations.DivRoutes := by
  constructor
  · intro c s t h
    refine ⟨fun hr => ?_, fun hr hoff => (jogs_eq_iff s t).mp ?_⟩
    · simpa [State.jogs] using exec_jogs_of_isReset h hr
    · by_cases hd : ∃ l, c = .div l
      · obtain ⟨l, rfl⟩ := hd
        exact exec_div_jogs_of_disabled h (hoff.resolve_left fun hne => hne l rfl)
      · exact exec_jogs_of_not_div h hr (not_exists.mp hd)
  · intro s pre post it l x hi hfirst hk hpos hx
    obtain rfl : x.launch = l := launch_of_entry? hx
    rw [exec_div_of_due hi hfirst hk hpos hx, divert_eq]
    rfl

end

section
/-! Deliveries (R84 to R92): what a delivery does with the tally, the path, the lock table and the retained store. The
disposal of the logical sheet is fixed by the sheets that it releases and the store that it keeps, so every recovery mode
goes through one lemma about the delivery. -/

namespace Sys2Proof.Machine

/-! ### Disposals -/

/-- The disposal that releases some sheets and keeps others in the store. -/
def Disposal.of (d : Disposition) (released kept : List LogicalSheet) (committed : Bool) : Disposal where
  disposition := d
  released := released.length
  unlocked := released.map LogicalSheet.seq
  store := kept
  committed := committed

/-- In SHEET mode the delivered sheet is released (R88). -/
theorem disposal_sheet (committed : Bool) (store : List LogicalSheet) (x : LogicalSheet) :
    disposal .sheet committed store x = .of .released [x] store committed := rfl

/-- The last sheet of a piece is released with the whole store (R91). -/
theorem disposal_piece_last (committed : Bool) (store : List LogicalSheet) {x : LogicalSheet} (hl : x.last = true) :
    disposal .piece committed store x = .of .pieceComplete (store ++ [x]) [] committed := by
  simp [disposal, Disposal.of, hl]

/-- A sheet of a committed piece is released at once (R92). -/
theorem disposal_piece_committed (store : List LogicalSheet) {x : LogicalSheet} (hl : x.last = false) :
    disposal .piece true store x = .of .committed [x] store true := by
  simp [disposal, Disposal.of, hl]

/-- A store with room retains the sheet (R90). -/
theorem disposal_piece_retained {store : List LogicalSheet} {x : LogicalSheet} (hl : x.last = false)
    (hroom : store.length ≤ 31) : disposal .piece false store x = .of .retained [] (store ++ [x]) false := by
  simp [disposal, Disposal.of, hl, hroom]

/-- A full store is released together with the sheet, and the piece is committed (R92). -/
theorem disposal_piece_full {store : List LogicalSheet} {x : LogicalSheet} (hl : x.last = false)
    (hfull : 32 ≤ store.length) : disposal .piece false store x = .of .committed (store ++ [x]) [] true := by
  have hroom : ¬store.length ≤ 31 := by omega
  simp [disposal, Disposal.of, hl, hroom]

/-- The sequences of some sheets do not name a lock table entry exactly when none of the sheets does. -/
theorem not_contains_map_seq (zs : List LogicalSheet) (q : Seq) :
    (!(zs.map LogicalSheet.seq).contains q) = zs.all fun z => z.seq != q := by
  rw [List.contains_eq_any_beq, List.any_map, List.not_any_eq_all_not]
  exact congrArg zs.all (funext fun z => by simp [bne, BEq.comm (a := q)])

/-! ### The delivery -/

theorem withoutHits_append (qs rs : List Queued) : withoutHits (qs ++ rs) = withoutHits qs ++ withoutHits rs :=
  List.filter_append ..

theorem withoutHits_sheetDone (r : SheetDoneRec) (fixed : Bool) :
    withoutHits [{ record := .sheetDone r, fixed := fixed }] = [{ record := .sheetDone r, fixed := fixed }] := rfl

section
variable {e : PathEntry} {x : LogicalSheet} {v : Serial} {s : State} (k : Stacker) (q : Pos)

/-- The trailing edge of an attached entry at a stacker's exit is its sheet event, then the delivery (R84, R96). -/
theorem metTE_stacker (hx : e.sheet = some x) :
    metTE e (stackerStation k) q s =
      deliver e x k q (sheetEvent .te .te (some (stackerStation k)) e q s) := by
  cases k <;> simp [metTE, trackTE, exitStacker, stackerStation, hx]

/-- A delivery counts in the retained tally (R86). -/
theorem metTE_stacker_tally (hx : e.sheet = some x) (hv : e.serial = some v) :
    (metTE e (stackerStation k) q s).tally = tallyAfter s.tally x v := by
  simp [metTE_stacker k q hx, deliver, hv]

/-- A delivery withdraws the items of its entry (R75). -/
theorem metTE_stacker_expect (hx : e.sheet = some x) :
    (metTE e (stackerStation k) q s).expect =
      { s.expect with items := s.expect.items.filter (·.kind.launch? != some e.launch) } := by
  simp [metTE_stacker k q hx, deliver, (leavePath_eq e _).2]

theorem metTE_stacker_fetch (hx : e.sheet = some x) : (metTE e (stackerStation k) q s).fetch = s.fetch := by
  simp [metTE_stacker k q hx, deliver]

variable {d : Disposition} {released kept : List LogicalSheet} {committed : Bool}

/-- The entry leaves the path and the loop, the store is what the disposal keeps, and the stacker piece record follows
the delivery, with none after a last sheet (R75, R87, R90 to R92). -/
theorem metTE_stacker_track (hx : e.sheet = some x) (hv : e.serial = some v)
    (hd : disposal s.cfg.recovery (pieceAfter s.track.piece x v).committed s.track.store x =
      .of d released kept committed) :
    (metTE e (stackerStation k) q s).track =
      { s.track with
        path := s.track.path.filter (·.launch != e.launch), loop := s.track.loop.erase e.launch, store := kept
        piece := if x.last then none else some { pieceAfter s.track.piece x v with committed := committed } } := by
  rw [State.cfg] at hd
  simp [metTE_stacker k q hx, deliver, State.cfg, (leavePath_eq e _).1, hv, hd, Disposal.of]

/-- The sheets released lose their lock table entries (R88, R90 to R92). -/
theorem metTE_stacker_pass (hx : e.sheet = some x) (hv : e.serial = some v)
    (hd : disposal s.cfg.recovery (pieceAfter s.track.piece x v).committed s.track.store x =
      .of d released kept committed) :
    (metTE e (stackerStation k) q s).pass =
      { s.pass with locks := s.pass.locks.filter fun y => released.all fun z => z.seq != y.seq } := by
  rw [State.cfg] at hd
  simp only [← not_contains_map_seq]
  simp [metTE_stacker k q hx, deliver, State.cfg, hv, hd, Disposal.of, unlock]

/-- One SHEET_DONE record names the disposition and the count of the sheets released (R85). -/
theorem metTE_stacker_withoutHits (hx : e.sheet = some x) (hv : e.serial = some v)
    (hd : disposal s.cfg.recovery (pieceAfter s.track.piece x v).committed s.track.store x =
      .of d released kept committed) :
    withoutHits (metTE e (stackerStation k) q s).report.queue =
      withoutHits s.report.queue ++
        [{ record :=
             .sheetDone
               { seq := x.seq, piece := x.piece, index := x.index, last := x.last, tag := x.tag, serial := some v
                 launch := e.launch, output := k, pos := q, disposition := d, released := released.length }
           fixed := false }] := by
  rw [State.cfg] at hd
  rw [metTE_stacker k q hx, deliver, sheetEvent_withoutHits]
  simp [State.cfg, hv, hd, Disposal.of, withoutHits_append, withoutHits_sheetDone]

end

end Sys2Proof.Machine

open Sys2Proof Sys2Proof.Machine

/-- Settles O55: what a delivery does with any disposal, and the disposal of each recovery mode. -/
theorem deliveryCountsAndCompletes : Obligations.DeliveryCountsAndCompletes := by
  refine ⟨fun s e x k q v hx hv => ?_, fun s t base => ⟨fun h => ?_, fun h => ?_⟩⟩
  · intro t store fresh counted ends
    have disposes {d : Disposition} {released kept : List LogicalSheet} {committed : Bool}
        (hd : disposal s.cfg.recovery counted.committed store x = .of d released kept committed) :
        ends d released kept committed :=
      ⟨metTE_stacker_track k q hx hv hd, metTE_stacker_pass k q hx hv hd, metTE_stacker_withoutHits k q hx hv hd⟩
    refine ⟨metTE_stacker_tally k q hx hv, metTE_stacker_expect k q hx, metTE_stacker_fetch k q hx,
      fun hmode => disposes ?_, fun hmode => ⟨fun hl => disposes ?_, fun hl hcom => disposes ?_,
        fun hl hcom hroom => disposes ?_, fun hl hcom hfull => disposes ?_⟩⟩
    · rw [hmode, disposal_sheet]
    · rw [hmode, disposal_piece_last _ _ hl]
    · rw [hmode, hcom, disposal_piece_committed _ hl]
    · rw [hmode, hcom, disposal_piece_retained hl hroom]
    · rw [hmode, hcom, disposal_piece_full hl hfull]
  · injection h with h
    subst h
    rfl
  · injection h with h
    subst h
    rfl

end

section
/-! The expansion of the mark (R108): the pixels of the raster bytes are the bits of the mark bytes, each followed by its
complement. The pixel clauses follow from the shape of such a line of pairs. -/

namespace Sys2Proof.Machine

/-! ### Lists made of pieces of one length -/

/-- In a list joined from pieces of length `n`, element `n * i + j` is element `j` of piece `i`. -/
theorem getElem?_flatMap_of_length {α β : Type} {f : α → List β} {n : Nat} (hf : ∀ a, (f a).length = n) {j : Nat}
    (hj : j < n) (l : List α) (i : Nat) : (l.flatMap f)[n * i + j]? = l[i]?.bind fun a => (f a)[j]? := by
  induction l generalizing i with
  | nil => simp
  | cons a l ih =>
    rw [List.flatMap_cons]
    cases i with
    | zero => simp [List.getElem?_append_left, hf, hj]
    | succ i =>
      have hskip : n * (i + 1) + j - n = n * i + j := by rw [Nat.mul_succ]; omega
      have hpast : n ≤ n * (i + 1) + j := by rw [Nat.mul_succ]; omega
      rw [List.getElem?_append_right (by rw [hf]; exact hpast), hf, hskip, ih, List.getElem?_cons_succ]

theorem length_flatMap_of_length {α β : Type} {f : α → List β} {n : Nat} (hf : ∀ a, (f a).length = n) (l : List α) :
    (l.flatMap f).length = n * l.length := by
  simp [List.length_flatMap, hf, Nat.mul_comm]

/-! ### Lines of pixel pairs -/

/-- The pixels of a line of bits: a bit of 1 is dark and then light, a bit of 0 light and then dark (R108). -/
def pixelPairs (bits : List Bool) : List Bool := bits.flatMap fun d => [d, !d]

theorem pixelPairs_append (xs ys : List Bool) : pixelPairs (xs ++ ys) = pixelPairs xs ++ pixelPairs ys :=
  List.flatMap_append

theorem length_pixelPairs (bits : List Bool) : (pixelPairs bits).length = 2 * bits.length :=
  length_flatMap_of_length (n := 2) (fun _ => rfl) bits

theorem pixelPairs_getElem?_even (bits : List Bool) (k : Nat) : (pixelPairs bits)[2 * k]? = bits[k]? := by
  simpa [pixelPairs] using
    getElem?_flatMap_of_length (f := fun d => [d, !d]) (n := 2) (fun _ => rfl) (j := 0) (by decide) bits k

theorem pixelPairs_getElem?_odd (bits : List Bool) (k : Nat) :
    (pixelPairs bits)[2 * k + 1]? = bits[k]?.map fun d => !d := by
  simpa [pixelPairs, Option.map_eq_bind, Function.comp_def] using
    getElem?_flatMap_of_length (f := fun d => [d, !d]) (n := 2) (fun _ => rfl) (j := 1) (by decide) bits k

/-- Every pair has one dark pixel. -/
theorem count_true_pixelPairs (bits : List Bool) : (pixelPairs bits).count true = bits.length := by
  induction bits with
  | nil => rfl
  | cons d bits ih =>
    change (d :: (!d) :: pixelPairs bits).count true = _
    cases d <;> simp [ih]

theorem pixelPairs_pair_ne {bits : List Bool} {k : Nat} (hk : k < bits.length) :
    (pixelPairs bits)[2 * k]? ≠ (pixelPairs bits)[2 * k + 1]? := by
  simp [pixelPairs_getElem?_even, pixelPairs_getElem?_odd, hk]

/-- Three neighbouring pixels contain a whole pair, whose two shades differ. -/
theorem pixelPairs_not_three_alike {bits : List Bool} {i : Nat} (hi : i + 2 < (pixelPairs bits).length) :
    ¬((pixelPairs bits)[i]? = (pixelPairs bits)[i + 1]? ∧ (pixelPairs bits)[i + 1]? = (pixelPairs bits)[i + 2]?) := by
  rintro ⟨hfirst, hsecond⟩
  rw [length_pixelPairs] at hi
  obtain ⟨k, rfl | rfl⟩ := Nat.even_or_odd' i
  · exact pixelPairs_pair_ne (by omega) hfirst
  · exact pixelPairs_pair_ne (k := k + 1) (by omega) hsecond

/-! ### The bits of a byte and of its two groups -/

/-- The eight pixels of a raster byte, or bits of a mark byte, the most significant leftmost (R108). -/
def pixelRow (b : Byte) : List Bool := (List.range 8).map fun k => b.getMsbD k

/-- The bits of a group of four, the most significant leftmost. -/
def groupBits (g : Nat) : List Bool := (List.range 4).map fun k => g.testBit (3 - k)

theorem length_pixelRow (b : Byte) : (pixelRow b).length = 8 := by simp [pixelRow]

theorem pixelRow_getElem? (b : Byte) {q : Nat} (hq : q < 8) : (pixelRow b)[q]? = some (b.getMsbD q) := by
  simp [pixelRow, hq]

theorem count_true_pixelRow (b : Byte) :
    (pixelRow b).count true = ((List.range 8).filter fun k => b.getMsbD k).length := by
  simp [pixelRow, List.count, List.countP_eq_length_filter, List.filter_map, Function.comp_def]

/-- A byte's bits are those of its high group and then those of its low group. -/
theorem pixelRow_eq_groupBits (b : Byte) :
    pixelRow b = groupBits (b.toNat / 16) ++ groupBits (b.toNat % 16) := by
  have hhigh (k : Nat) : (b.toNat / 16).testBit k = b.toNat.testBit (k + 4) :=
    Nat.testBit_div_two_pow b.toNat k (n := 4)
  have hlow (k : Nat) : (b.toNat % 16).testBit k = (decide (k < 4) && b.toNat.testBit k) :=
    Nat.testBit_mod_two_pow b.toNat 4 k
  simp [pixelRow, groupBits, List.range_succ, BitVec.getMsbD, BitVec.getLsbD, hhigh, hlow]

/-! ### The expansion -/

theorem pixelRow_expandGroup : ∀ g < 16, pixelRow (expandGroup g) = pixelPairs (groupBits g) := by decide

theorem markTable_getElem? : ∀ g < 16, markTable[g]? = some (expandGroup g) := by decide

theorem highGroup_lt (b : Byte) : b.toNat / 16 < 16 := by have := b.isLt; omega

theorem lowGroup_lt (b : Byte) : b.toNat % 16 < 16 := Nat.mod_lt _ (by decide)

theorem exists_group_of_mem_expandMark {bs : List Byte} {r : Byte} (h : r ∈ expandMark bs) :
    ∃ g < 16, r = expandGroup g := by
  obtain ⟨b, -, hr⟩ := List.mem_flatMap.mp h
  obtain rfl | rfl : r = expandGroup (b.toNat / 16) ∨ r = expandGroup (b.toNat % 16) := by simpa using hr
  · exact ⟨_, highGroup_lt b, rfl⟩
  · exact ⟨_, lowGroup_lt b, rfl⟩

theorem length_expandMark (bs : List Byte) : (expandMark bs).length = 2 * bs.length :=
  length_flatMap_of_length (n := 2) (fun _ => rfl) bs

theorem expandMark_getElem?_even (bs : List Byte) (i : Nat) :
    (expandMark bs)[2 * i]? = bs[i]?.bind fun b => markTable[b.toNat / 16]? := by
  simp only [markTable_getElem? _ (highGroup_lt _)]
  exact getElem?_flatMap_of_length (n := 2) (fun _ => rfl) (j := 0) (by decide) bs i

theorem expandMark_getElem?_odd (bs : List Byte) (i : Nat) :
    (expandMark bs)[2 * i + 1]? = bs[i]?.bind fun b => markTable[b.toNat % 16]? := by
  simp only [markTable_getElem? _ (lowGroup_lt _)]
  exact getElem?_flatMap_of_length (n := 2) (fun _ => rfl) (j := 1) (by decide) bs i

/-- The pixels of the expanded mark are the pixel pairs of the mark's bits. -/
theorem pixels_expandMark (bs : List Byte) :
    (expandMark bs).flatMap pixelRow = pixelPairs (bs.flatMap pixelRow) := by
  induction bs with
  | nil => rfl
  | cons b bs ih =>
    calc (expandMark (b :: bs)).flatMap pixelRow
        = (pixelRow (expandGroup (b.toNat / 16)) ++ pixelRow (expandGroup (b.toNat % 16))) ++
            (expandMark bs).flatMap pixelRow := by simp [expandMark]
      _ = pixelPairs (pixelRow b) ++ pixelPairs (bs.flatMap pixelRow) := by
          rw [pixelRow_expandGroup _ (highGroup_lt b), pixelRow_expandGroup _ (lowGroup_lt b), ← pixelPairs_append,
            ← pixelRow_eq_groupBits, ih]
      _ = pixelPairs ((b :: bs).flatMap pixelRow) := by rw [← pixelPairs_append, List.flatMap_cons]

theorem flatMap_pixelRow_getElem? (bs : List Byte) (i : Nat) {q : Nat} (hq : q < 8) :
    (bs.flatMap pixelRow)[8 * i + q]? = bs[i]?.map fun b => b.getMsbD q := by
  rw [getElem?_flatMap_of_length length_pixelRow hq]
  simp [pixelRow_getElem? _ hq, Option.map_eq_bind]

/-- Four of the eight pixels of every expanded byte are dark. -/
theorem count_dark_of_mem_expandMark {bs : List Byte} {r : Byte} (h : r ∈ expandMark bs) :
    ((List.range 8).filter fun k => r.getMsbD k).length = 4 := by
  obtain ⟨g, hg, rfl⟩ := exists_group_of_mem_expandMark h
  rw [← count_true_pixelRow, pixelRow_expandGroup g hg, count_true_pixelPairs]
  rfl

end Sys2Proof.Machine

open Sys2Proof Sys2Proof.Machine

/-- Settles O25: the bytes by the table, the pixels as the pairs of the mark's bits. -/
theorem markExpansion : Obligations.MarkExpansion := by
  intro bs out pixels
  have hpixels : pixels = pixelPairs (bs.flatMap pixelRow) := pixels_expandMark bs
  have hlength : out.length = 2 * bs.length := length_expandMark bs
  refine ⟨hlength, fun h => by rw [hlength, h], fun i q _ hq => ?_,
    fun i _ => ⟨expandMark_getElem?_even bs i, expandMark_getElem?_odd bs i⟩,
    fun _ => count_dark_of_mem_expandMark, ?_⟩
  · have hplace : 16 * i + 2 * q = 2 * (8 * i + q) := by omega
    rw [hpixels, hplace, pixelPairs_getElem?_even, pixelPairs_getElem?_odd, flatMap_pixelRow_getElem? bs i hq]
    exact ⟨rfl, Option.map_map ..⟩
  · rw [hpixels]
    exact fun _ => pixelPairs_not_three_alike

end

section
/-! The arbiter (R142): one equation per row of the table of the two queues and the wait count, the bounds of the wait count
that every row keeps, and what a reset leaves. -/

namespace Sys2Proof.Machine

/-! ### The rows of the table -/

theorem grant_of_both_empty {s : State} (hf : s.pass.fwd = []) (ho : s.pass.own = []) : grant s = s := by
  simp [grant, hf, ho]

theorem grant_of_own_empty {s : State} {f : Forwarded} {fs : List Forwarded} (hf : s.pass.fwd = f :: fs)
    (ho : s.pass.own = []) :
    grant s = { s with pass := { s.pass with fwd := fs, granted := some (.forwarded f), wait := 0 } } := by
  simp [grant, hf, ho]

theorem grant_of_forward_empty {s : State} {a : OwnAccess} {as : List OwnAccess} (hf : s.pass.fwd = [])
    (ho : s.pass.own = a :: as) :
    grant s = { s with pass := { s.pass with own := as, granted := some (.own a), wait := 0 } } := by
  simp [grant, hf, ho]

theorem grant_of_wait_lt {s : State} {f : Forwarded} {fs : List Forwarded} {a : OwnAccess} {as : List OwnAccess}
    (hf : s.pass.fwd = f :: fs) (ho : s.pass.own = a :: as) (hw : s.pass.wait < 4) :
    grant s =
      { s with pass := { s.pass with fwd := fs, granted := some (.forwarded f), wait := s.pass.wait + 1 } } := by
  simp [grant, hf, ho, hw]

theorem grant_of_le_wait {s : State} {f : Forwarded} {fs : List Forwarded} {a : OwnAccess} {as : List OwnAccess}
    (hf : s.pass.fwd = f :: fs) (ho : s.pass.own = a :: as) (hw : 4 ≤ s.pass.wait) :
    grant s = { s with pass := { s.pass with own := as, granted := some (.own a), wait := 0 } } := by
  simp [grant, hf, ho, hw]

/-! ### The wait count -/

/-- The count rises only from below 4 and with an own access that stays at the head of its FIFO; every other grant sets it
to 0 (R142). -/
theorem grant_wait_bounds {s : State} (hle : s.pass.wait ≤ 4) (hzero : s.pass.own = [] → s.pass.wait = 0) :
    (grant s).pass.wait ≤ 4 ∧ ((grant s).pass.own = [] → (grant s).pass.wait = 0) := by
  rcases hf : s.pass.fwd with _ | ⟨f, fs⟩ <;> rcases ho : s.pass.own with _ | ⟨a, as⟩
  · rw [grant_of_both_empty hf ho]
    exact ⟨hle, hzero⟩
  · simp [grant_of_forward_empty hf ho]
  · simp [grant_of_own_empty hf ho]
  · rcases Nat.lt_or_ge s.pass.wait 4 with hw | hw
    · rw [grant_of_wait_lt hf ho hw]
      exact ⟨hw, fun hnil => absurd (ho.symm.trans hnil) (List.cons_ne_nil a as)⟩
    · simp [grant_of_le_wait hf ho hw]

/-! ### MEMORY_PORT_GRANT and the resets -/

theorem exec_memoryPortGrant_of_busy {s : State} (h : s.pass.granted ≠ none) : exec .memoryPortGrant s = .next s := by
  change execMemoryPortGrant s = _
  rw [execMemoryPortGrant, if_neg h]

theorem exec_memoryPortGrant_of_free {s : State} (h : s.pass.granted = none) :
    exec .memoryPortGrant s = .next (grant (begin s)) := by
  change execMemoryPortGrant s = _
  rw [execMemoryPortGrant, if_pos h]

theorem exec_memoryPortGrant_wait_bounds {s t : State} (hle : s.pass.wait ≤ 4)
    (hzero : s.pass.own = [] → s.pass.wait = 0) (h : exec .memoryPortGrant s = .next t) :
    t.pass.wait ≤ 4 ∧ (t.pass.own = [] → t.pass.wait = 0) := by
  by_cases hg : s.pass.granted = none
  · obtain rfl := Host.Outcome.next.inj ((exec_memoryPortGrant_of_free hg).symm.trans h)
    exact grant_wait_bounds (s := begin s) hle hzero
  · obtain rfl := Host.Outcome.next.inj ((exec_memoryPortGrant_of_busy hg).symm.trans h)
    exact ⟨hle, hzero⟩

/-- Either kind of reset puts the pass-through unit in its reset state (R144). -/
theorem pass_of_reset {base : BitVec 4} {s t : State}
    (h : exec (.systemReset base) s = .next t ∨ exec (.powerOnReset base) s = .next t) :
    t.pass = State.reset.pass := by
  obtain h | h := h <;> (obtain rfl := Host.Outcome.next.inj h; rfl)

end Sys2Proof.Machine

open Sys2Proof Sys2Proof.Machine

/-- Settles O18: a free port by the row of the table that the queues and the count select, the bounds row by row, and the
resets by the pass-through unit that they leave. -/
theorem arbiterGrants : Obligations.ArbiterGrants := by
  intro s
  refine ⟨exec_memoryPortGrant_of_busy, fun hfree => ?_,
    fun hle hzero _ h => exec_memoryPortGrant_wait_bounds hle hzero h, fun _ t h => ?_⟩
  · rw [exec_memoryPortGrant_of_free hfree]
    exact ⟨fun hf ho => congrArg _ (grant_of_both_empty (s := begin s) hf ho),
      fun _ _ hf ho => congrArg _ (grant_of_own_empty (s := begin s) hf ho),
      fun _ _ hf ho => congrArg _ (grant_of_forward_empty (s := begin s) hf ho),
      fun _ _ _ _ hf ho hw => congrArg _ (grant_of_wait_lt (s := begin s) hf ho hw),
      fun _ _ _ _ hf ho hw => congrArg _ (grant_of_le_wait (s := begin s) hf ho hw)⟩
  · rw [pass_of_reset h]
    exact ⟨rfl, rfl, rfl⟩

end

section
/-! What a command can do to the parts of the state that the invariants speak of, said once: every command but a reset is
a chain of moves, with at most one pick in it. Each invariant is then proved move by move. -/

namespace Sys2Proof.Machine

/-! ### The parts that the invariants speak of -/

/-- The parts of the state that the invariants speak of. -/
structure Vitals where
  state : RunState
  timer : Option Nat
  cover : Bool
  tready : Bool
  lock : Bool
  items : List Item
  staged : Option Launch
  gapMet : Bool
  lastRelease : Option (Pos × Nat)
  counter : Launch
  current : Option CurrentSide
  path : List PathEntry
  store : List LogicalSheet
  inForce : Option Setup
  fwd : List Forwarded
  own : List OwnAccess
  wait : Nat
  entries : List HistEntry
  acc : Nat
  estTicks : Nat

def State.vitals (s : State) : Vitals where
  state := s.run.state
  timer := s.run.timer
  cover := s.pins.cover
  tready := s.pins.tready
  lock := s.recover.lock
  items := s.expect.items
  staged := s.plan.staged
  gapMet := s.plan.gapMet
  lastRelease := s.plan.lastRelease
  counter := s.plan.counter
  current := s.image.current
  path := s.track.path
  store := s.track.store
  inForce := s.setup.inForce
  fwd := s.pass.fwd
  own := s.pass.own
  wait := s.pass.wait
  entries := s.history.entries
  acc := s.time.acc
  estTicks := s.time.estTicks

@[simp] theorem vitals_state (s : State) : s.vitals.state = s.run.state := rfl
@[simp] theorem vitals_items (s : State) : s.vitals.items = s.expect.items := rfl
@[simp] theorem vitals_path (s : State) : s.vitals.path = s.track.path := rfl
@[simp] theorem vitals_own (s : State) : s.vitals.own = s.pass.own := rfl
@[simp] theorem vitals_fwd (s : State) : s.vitals.fwd = s.pass.fwd := rfl
@[simp] theorem vitals_store (s : State) : s.vitals.store = s.track.store := rfl

/-! ### Operations that leave all of them -/

@[simp] theorem begin_vitals (s : State) : (begin s).vitals = s.vitals := rfl
@[simp] theorem emit_vitals (o : Output) (s : State) : (emit o s).vitals = s.vitals := rfl
@[simp] theorem freePort_vitals (s : State) : (freePort s).vitals = s.vitals := rfl
@[simp] theorem setUnit_vitals (u : UnitId) (x : WatchUnit) (s : State) : (setUnit u x s).vitals = s.vitals := by
  cases u <;> rfl
@[simp] theorem handRecord_vitals (r : Record) (s : State) : (handRecord r s).vitals = s.vitals := rfl
@[simp] theorem handOption_vitals (r : Option Record) (s : State) : (handOption r s).vitals = s.vitals := by
  cases r <;> rfl
@[simp] theorem handOrFold_vitals (f : Record → Option Record) (new : Record) (s : State) :
    (handOrFold f new s).vitals = s.vitals := by simp [State.vitals]
@[simp] theorem handRefusal_vitals (o : SetupOutcome) (v : Byte) (s : State) : (handRefusal o v s).vitals = s.vitals := by
  simp [State.vitals]
@[simp] theorem handPolicy_vitals (row : PolicyRow) (o : PolicyField) (f : Forwarded) (v w : Option Nat) (s : State) :
    (handPolicy row o f v w s).vitals = s.vitals := by simp [State.vitals]
@[simp] theorem offer_vitals (item : HitItem) (s : State) : (offer item s).vitals = s.vitals := by simp [State.vitals]
@[simp] theorem unlock_vitals (seqs : List Seq) (s : State) : (unlock seqs s).vitals = s.vitals := rfl
@[simp] theorem requeue_vitals (xs : List LogicalSheet) (s : State) : (requeue xs s).vitals = s.vitals := rfl
@[simp] theorem leaveLoop_vitals (l : Launch) (n : Nat) (s : State) : (leaveLoop l n s).vitals = s.vitals := by
  simp [State.vitals]
@[simp] theorem forgetStacker_vitals (l : Launch) (s : State) : (forgetStacker l s).vitals = s.vitals := by
  simp [State.vitals]
@[simp] theorem takeSerial_vitals (e : PathEntry) (s : State) : (takeSerial e s).vitals = s.vitals := by simp [State.vitals]
@[simp] theorem commitLoop_vitals (l : Launch) (h : LogicalSheet) (s : State) : (commitLoop l h s).vitals = s.vitals := by
  simp [State.vitals]
@[simp] theorem jog_vitals (e : PathEntry) (r : Route) (s : State) : (jog e r s).vitals = s.vitals := by simp [State.vitals]
@[simp] theorem silenceStep_vitals (s : State) : (silenceStep s).vitals = s.vitals := by simp [State.vitals]
@[simp] theorem moveP_vitals (s : State) : (moveP s).vitals = s.vitals := by simp [State.vitals]
@[simp] theorem setLine_vitals (l : Fin 16) (x : Line) (s : State) : (setLine l x s).vitals = s.vitals := rfl
@[simp] theorem setSensor_vitals (l : Fin 16) (b : Bool) (s : State) : (setSensor l b s).vitals = s.vitals := rfl
@[simp] theorem setTray_vitals (t : Fin 4) (b : Bool) (s : State) : (setTray t b s).vitals = s.vitals := rfl
@[simp] theorem setStacker_vitals (k : Stacker) (b : Bool) (s : State) : (setStacker k b s).vitals = s.vitals := by
  cases k <;> rfl
@[simp] theorem flagError_vitals (s : State) : (flagError s).vitals = s.vitals := rfl
@[simp] theorem endFetch_vitals (s : State) : (endFetch s).vitals = s.vitals := by simp [State.vitals]
@[simp] theorem noteSetupRead_vitals (ok : Bool) (bs : List Byte) (s : State) : (noteSetupRead ok bs s).vitals = s.vitals := by
  simp [State.vitals]
@[simp] theorem refuseSetup_vitals (o : SetupOutcome) (s : State) : (refuseSetup o s).vitals = s.vitals := by
  simp [State.vitals]
@[simp] theorem recordWritten_vitals (q : Queued) (qs : List Queued) (s : State) :
    (recordWritten q qs s).vitals = s.vitals := by simp [State.vitals]
@[simp] theorem noteDumpWrite_vitals (d : Dump) (s : State) : (noteDumpWrite d s).vitals = s.vitals := by simp [State.vitals]
@[simp] theorem endDump_vitals (d : Dump) (s : State) : (endDump d s).vitals = s.vitals := by simp [State.vitals]
@[simp] theorem blockError_vitals (k : OwnKind) (s : State) : (blockError k s).vitals = s.vitals := by simp [State.vitals]
@[simp] theorem estimatePulse_vitals (s : State) : (estimatePulse s).vitals = s.vitals := by simp [State.vitals]
@[simp] theorem encoderPulse_vitals (s : State) : (encoderPulse s).vitals = s.vitals := by simp [State.vitals]
@[simp] theorem handLost_vitals (s : State) : (handLost s).vitals = s.vitals := rfl
@[simp] theorem closeOpen_vitals (p : PieceId) (s : State) : (closeOpen p s).vitals = s.vitals := by simp [State.vitals]
@[simp] theorem cancelPending_vitals (p : PieceId) (s : State) : (cancelPending p s).vitals = s.vitals := by
  simp [State.vitals]
@[simp] theorem dropStale_vitals (s : State) : (dropStale s).vitals = s.vitals := rfl
@[simp] theorem deferSheet_vitals (s : State) : (deferSheet s).vitals = s.vitals := rfl
@[simp] theorem acceptSheet_vitals (slot : List Byte) (s : State) : (acceptSheet slot s).vitals = s.vitals := rfl
@[simp] theorem notePost_vitals (i : Nat) (s : State) : (notePost i s).vitals = s.vitals := rfl
@[simp] theorem noteTail_vitals (f : Forwarded) (s : State) : (noteTail f s).vitals = s.vitals := by simp [State.vitals]
@[simp] theorem recordPolicy_vitals (row : Option PolicyRow) (o : PolicyOutcome) (f : Forwarded) (s : State) :
    (recordPolicy row o f s).vitals = s.vitals := by simp [State.vitals]


/-! ### Operations that change one of them -/

@[simp] theorem changeRun_vitals (new : RunState) (cause : Option StopCause) (s : State) :
    (changeRun new cause s).vitals = { s.vitals with state := new } := by simp [State.vitals]
@[simp] theorem appendHist_vitals (kind : HistKind) (station : Option Station) (serial : Option Serial) (seq : Option Seq)
    (launch : Option Launch) (pos : Pos) (s : State) :
    (appendHist kind station serial seq launch pos s).vitals =
      { s.vitals with entries := (appendHist kind station serial seq launch pos s).history.entries } := by
  simp [State.vitals]
@[simp] theorem addItem_vitals (it : Item) (s : State) :
    (addItem it s).vitals = { s.vitals with items := insertItem it s.expect.items } := rfl
@[simp] theorem withdraw_vitals (p : Item → Bool) (s : State) :
    (withdraw p s).vitals = { s.vitals with items := s.expect.items.filter fun i => !p i } := rfl
@[simp] theorem dropItem_vitals (it : Item) (s : State) :
    (dropItem it s).vitals = { s.vitals with items := s.expect.items.erase it } := rfl
@[simp] theorem updEntry_vitals (l : Launch) (f : PathEntry → PathEntry) (s : State) :
    (updEntry l f s).vitals = { s.vitals with path := s.track.path.map fun e => if e.launch = l then f e else e } := rfl
@[simp] theorem pushOwn_vitals (a : OwnAccess) (s : State) :
    (pushOwn a s).vitals = { s.vitals with own := s.pass.own ++ [a] } := rfl
@[simp] theorem forward_vitals (f : Forwarded) (s : State) :
    (forward f s).vitals = { s.vitals with fwd := s.pass.fwd ++ [f] } := rfl
@[simp] theorem clearPath_vitals (s : State) :
    (clearPath s).vitals = { s.vitals with path := [], items := [], current := none, lock := false } := rfl
@[simp] theorem leaveEstimate_vitals (s : State) :
    (leaveEstimate s).vitals = { s.vitals with acc := 0, estTicks := 0 } := rfl
@[simp] theorem gapOver_vitals (s : State) : (gapOver s).vitals = { s.vitals with gapMet := true } := rfl
@[simp] theorem setTready_vitals (b : Bool) (s : State) : (setTready b s).vitals = { s.vitals with tready := b } := rfl
@[simp] theorem setCover_vitals (b : Bool) (s : State) : (setCover b s).vitals = { s.vitals with cover := b } := rfl
@[simp] theorem haltPath_vitals (s : State) :
    (haltPath s).vitals =
      { s.vitals with
        timer := none, items := [], staged := none, gapMet := true, lastRelease := none, current := none } := rfl
@[simp] theorem countTick_vitals (s : State) :
    (countTick s).vitals = { s.vitals with timer := s.run.timer.map (· + 1) } := rfl
@[simp] theorem estimateTick_vitals (s : State) :
    (estimateTick s).vitals =
      { s.vitals with acc := (s.time.acc + s.cfg.estRate) % 16, estTicks := min (s.time.estTicks + 1) 65535 } := by
  simp [State.vitals, estimateTick, travel]

/-! ### Moves -/

/-- One move of the vital parts. With `strict` an item is armed, a side made current and the planner's record written
only outside STOPPED. -/
inductive Move (strict : Prop) : Vitals → Vitals → Prop
  | history (c : Vitals) (l : List HistEntry) (h : c.entries.length ≤ 32 → l.length ≤ 32) :
      Move strict c { c with entries := l }
  /-- A stop (R43, R116): with the lock clear every entry is left detached. -/
  | stop (c : Vitals) (path : List PathEntry) (store : List LogicalSheet) (entries : List HistEntry)
      (hs : c.state ≠ .unset ∧ c.state ≠ .stopped)
      (hp : path.map PathEntry.launch = c.path.map PathEntry.launch)
      (hd : c.lock = false → ∀ e ∈ path, e.sheet = none) (hst : store.length ≤ c.store.length)
      (he : c.entries.length ≤ 32 → entries.length ≤ 32) :
      Move strict c
        { c with
          state := .stopped, timer := none, lock := true, items := [], staged := none, gapMet := true
          lastRelease := none, current := none, path := path, store := store, entries := entries }
  | arm (c : Vitals) (l : List Item) (h : strict → c.state ≠ .stopped) : Move strict c { c with items := l }
  | drop (c : Vitals) (l : List Item) (h : l.Sublist c.items) : Move strict c { c with items := l }
  | plan (c : Vitals) (staged : Option Launch) (gapMet : Bool) (last : Option (Pos × Nat))
      (h : strict → c.state ≠ .stopped) :
      Move strict c { c with staged := staged, gapMet := gapMet, lastRelease := last }
  | gap (c : Vitals) : Move strict c { c with gapMet := true }
  | image (c : Vitals) (side : CurrentSide) (h : c.current ≠ none ∨ (strict → c.state ≠ .stopped)) :
      Move strict c { c with current := some side }
  | blank (c : Vitals) : Move strict c { c with current := none }
  /-- The path table loses entries or changes them; none is added and none is attached anew. -/
  | path (c : Vitals) (p : List PathEntry) (hl : (p.map PathEntry.launch).Sublist (c.path.map PathEntry.launch))
      (hs : ∀ x ∈ p, x.sheet = none ∨ ∃ y ∈ c.path, y.sheet = x.sheet) : Move strict c { c with path := p }
  | store (c : Vitals) (l : List LogicalSheet) (h : c.store.length ≤ 32 → l.length ≤ 32) :
      Move strict c { c with store := l }
  | forward (c : Vitals) (f : Forwarded) (h : c.fwd.length < 8) : Move strict c { c with fwd := c.fwd ++ [f] }
  | own (c : Vitals) (a : OwnAccess) (h : c.own.length < 16) : Move strict c { c with own := c.own ++ [a] }
  | grant (s : State) : Move strict s.vitals (grant s).vitals
  | time (c : Vitals) (a n : Nat) (ha : a < 16) (hn : n ≤ 65535) : Move strict c { c with acc := a, estTicks := n }
  | tick (c : Vitals) : Move strict c { c with timer := c.timer.map (· + 1) }
  | tready (c : Vitals) (b : Bool) (h : b = false → c.state ≠ .running ∧ c.state ≠ .draining) :
      Move strict c { c with tready := b }
  | cover (c : Vitals) (b : Bool) (h : b = false → c.state ≠ .starting ∧ c.state ≠ .running ∧ c.state ≠ .draining) :
      Move strict c { c with cover := b }
  /-- STARTING is entered with the cover closed (R41). -/
  | start (c : Vitals) (hs : c.state = .idle) (hc : c.cover = true) :
      Move strict c { c with state := .starting, timer := some 0 }
  /-- STARTING ends at speed (R42). -/
  | speed (c : Vitals) (r : RunState) (hs : c.state = .starting) (ht : c.tready = true)
      (hr : r = .running ∨ r = .draining) : Move strict c { c with state := r, timer := none }
  /-- A moving controller drains, runs again, or falls idle (R45, R47, R48, R51). -/
  | shift (c : Vitals) (r : RunState) (hs : c.state = .running ∨ c.state = .draining)
      (hr : r = .running ∨ r = .draining ∨ r = .idle) : Move strict c { c with state := r }
  /-- CLEARED (R49, R128). -/
  | clear (c : Vitals) (hs : c.state = .stopped) :
      Move strict c
        { c with state := .idle, path := [], items := [], current := none, lock := false, acc := 0, estTicks := 0 }
  /-- A setup is put into force (R151). -/
  | accept (c : Vitals) (setup : Setup) (hs : c.state = .unset ∨ c.state = .idle ∧ c.path = []) :
      Move strict c
        { c with
          state := .idle, inForce := some setup, items := [], gapMet := true, lastRelease := none }

/-- A chain of moves. -/
abbrev Moves (strict : Prop) : Vitals → Vitals → Prop := Relation.ReflTransGen (Move strict)

end Sys2Proof.Machine
end

section
/-! The shared operations as chains of moves: the history, stops, the path table, giving up a piece, own accesses, run-state
control and the planner. -/

namespace Sys2Proof.Machine

/-! ### History -/

/-- Only the history has changed, within its 32 entries. -/
def Vitals.remembers (c d : Vitals) : Prop :=
  ∃ l, d = { c with entries := l } ∧ (c.entries.length ≤ 32 → l.length ≤ 32)

theorem Vitals.remembers.refl (c : Vitals) : c.remembers c := ⟨c.entries, rfl, id⟩

theorem Vitals.remembers.trans {c d e : Vitals} (h : c.remembers d) (k : d.remembers e) : c.remembers e := by
  obtain ⟨l, rfl, hl⟩ := h
  obtain ⟨m, rfl, hm⟩ := k
  exact ⟨m, rfl, hm ∘ hl⟩

theorem Vitals.remembers.moves {c d : Vitals} {strict : Prop} (h : c.remembers d) : Moves strict c d := by
  obtain ⟨l, rfl, hl⟩ := h
  exact .single (.history c l hl)

theorem appendHist_remembers (kind : HistKind) (station : Option Station) (serial : Option Serial) (seq : Option Seq)
    (launch : Option Launch) (pos : Pos) (s : State) :
    s.vitals.remembers (appendHist kind station serial seq launch pos s).vitals := by
  refine ⟨_, appendHist_vitals kind station serial seq launch pos s, fun h => ?_⟩
  rcases appendHist_cases kind station serial seq launch pos s with ⟨_, hk⟩ | ⟨_, hk⟩
  · rw [hk]; exact h
  · rw [hk]; exact newest_length 32 _

theorem sheetEvent_remembers (kind : SheetEventKind) (hist : HistKind) (station : Option Station) (e : PathEntry)
    (pos : Pos) (s : State) : s.vitals.remembers (sheetEvent kind hist station e pos s).vitals := by
  rw [sheetEvent, offer_vitals]
  exact appendHist_remembers ..

theorem reportSpoiled_remembers (e : PathEntry) (reason : SpoilReason) (place : Option Station) (pos : Pos)
    (s : State) : s.vitals.remembers (reportSpoiled e reason place pos s).vitals :=
  sheetEvent_remembers .spoil _ place e pos (handRecord _ s)

theorem reportAll_remembers (pos : Pos) (es : List PathEntry) (s : State) :
    s.vitals.remembers (es.foldl (fun s e => reportSpoiled e (stopReason e) none pos s) s).vitals := by
  induction es generalizing s with
  | nil => exact .refl _
  | cons e es ih => exact (reportSpoiled_remembers e _ none pos s).trans (ih _)

/-! ### Stops -/

/-- A broken piece empties the retained store (R122). -/
theorem breakPiece_vitals (s : State) :
    ∃ store, (breakPiece s).vitals = { s.vitals with store := store } ∧ store.length ≤ s.track.store.length := by
  unfold breakPiece
  split
  · exact ⟨s.track.store, rfl, le_rfl⟩
  · exact ⟨[], rfl, Nat.zero_le _⟩

/-- The recovery unit's work leaves every entry detached (R116, R118). -/
theorem stopWork_vitals (snap : Snapshot) (s : State) :
    ∃ store entries,
      (stopWork snap s).vitals =
        { s.vitals with
          lock := true, path := s.track.path.map PathEntry.stopped, store := store, entries := entries } ∧
      store.length ≤ s.track.store.length ∧ (s.history.entries.length ≤ 32 → entries.length ≤ 32) := by
  obtain ⟨es, hrep, hes⟩ := reportAll_remembers snap.pos s.track.path
    (handRecord (.fault { snapshot := snap, spoiled := s.track.path.length, estimate := s.time.estimate })
      { s with recover := { snapshot := some snap, lock := true } })
  rw [stopWork]
  generalize s.track.path.foldl (fun s e => reportSpoiled e (stopReason e) none snap.pos s)
    (handRecord (.fault { snapshot := snap, spoiled := s.track.path.length, estimate := s.time.estimate })
      { s with recover := { snapshot := some snap, lock := true } }) = u at hrep
  let v := requeue (s.track.path.filterMap PathEntry.sheet)
    { u with
      track := { u.track with path := s.track.path.map PathEntry.stopped }
      plan := { u.plan with lastStacker := none } }
  have hv : v.vitals = { s.vitals with lock := true, path := s.track.path.map PathEntry.stopped, entries := es } := by
    change { u.vitals with path := s.track.path.map PathEntry.stopped } = _
    rw [hrep]
    rfl
  have hbreak : ∃ store, (if v.breaksPiece s.track.path = true then breakPiece v else v).vitals =
      { v.vitals with store := store } ∧ store.length ≤ s.track.store.length := by
    have hstore : v.track.store = s.track.store := congrArg Vitals.store hv
    split
    · rw [← hstore]; exact breakPiece_vitals v
    · exact ⟨v.track.store, rfl, hstore ▸ le_rfl⟩
  obtain ⟨store, hw, hstore⟩ := hbreak
  obtain ⟨entries, happ, hlen⟩ := appendHist_remembers (.stop snap.cause) snap.station snap.serial none snap.launch
    snap.pos (if v.breaksPiece s.track.path = true then breakPiece v else v)
  refine ⟨store, entries, happ.trans ?_, hstore, fun h => hlen ?_⟩
  · rw [hw, hv]
  · rw [hw, hv]; exact hes h

theorem stopped_launch (e : PathEntry) : e.stopped.launch = e.launch := by
  unfold PathEntry.stopped; split <;> rfl

theorem stopped_sheet (e : PathEntry) : e.stopped.sheet = none := by
  unfold PathEntry.stopped PathEntry.attached
  split
  · rfl
  · next h => simpa using h

/-- No cause stops in UNSET or in STOPPED (R43). -/
theorem ne_of_stopsIn {cause : StopCause} {r : RunState} (h : stopsIn cause r = true) : r ≠ .unset ∧ r ≠ .stopped := by
  constructor <;> (rintro rfl; cases cause <;> simp [stopsIn] at h)

/-- A stop that stops is one move, whichever parts the stopped state is given beside (R43, R116). -/
theorem stop_vitals (cause : StopCause) (station : Option Station) (pos : Pos) (launch : Option Launch)
    (serial : Option Serial) (s : State) (h : stopsIn cause s.run.state = true) :
    ∃ path store entries,
      (stop cause station pos launch serial s).vitals =
        { s.vitals with
          state := .stopped, timer := none, lock := true, items := [], staged := none, gapMet := true
          lastRelease := none, current := none, path := path, store := store, entries := entries } ∧
      path.map PathEntry.launch = s.track.path.map PathEntry.launch ∧
      (s.recover.lock = false → ∀ e ∈ path, e.sheet = none) ∧ store.length ≤ s.track.store.length ∧
      (s.history.entries.length ≤ 32 → entries.length ≤ 32) := by
  rcases stop_cases cause station pos launch serial s with ⟨hn, _⟩ | ⟨_, hl, he⟩ | ⟨_, hl, he⟩
  · exact absurd h (by simp [hn])
  · refine ⟨s.track.path, s.track.store, s.history.entries, ?_, rfl, fun hf => absurd hl (by simp [hf]), le_rfl, id⟩
    have hlock : s.vitals.lock = true := hl
    rw [he, haltPath_vitals, changeRun_vitals, ← hlock]
    rfl
  · obtain ⟨store, entries, hw, hs, hes⟩ := stopWork_vitals
      { cause := cause, station := station, pos := pos, serial := serial, launch := launch, former := s.run.state }
      (haltPath (changeRun .stopped (some cause) s))
    have hpath : (haltPath (changeRun .stopped (some cause) s)).track.path = s.track.path := by simp
    refine ⟨s.track.path.map PathEntry.stopped, store, entries, ?_, ?_, fun _ => ?_, by simpa using hs, by simpa using hes⟩
    · rw [he, hw, haltPath_vitals, changeRun_vitals, hpath]
    · simp [Function.comp_def, stopped_launch]
    · simp [stopped_sheet]

variable {strict : Prop}

theorem stop_moves (cause : StopCause) (station : Option Station) (pos : Pos) (launch : Option Launch)
    (serial : Option Serial) (s : State) : Moves strict s.vitals (stop cause station pos launch serial s).vitals := by
  cases h : stopsIn cause s.run.state
  · rw [stop, h]; exact .refl
  · obtain ⟨path, store, entries, he, hl, hd, hs, hes⟩ := stop_vitals cause station pos launch serial s h
    rw [he]
    exact .single (.stop _ path store entries (ne_of_stopsIn h) hl hd hs hes)

theorem stopAtP_moves (cause : StopCause) (s : State) : Moves strict s.vitals (stopAtP cause s).vitals :=
  stop_moves ..

theorem pathFault_moves (cause : StopCause) (st : Station) (pos : Pos) (l : Launch) (s : State) :
    Moves strict s.vitals (pathFault cause st pos l s).vitals := stop_moves ..

/-! ### The expectation list and the path table -/

theorem dropItem_moves (it : Item) (s : State) : Moves strict s.vitals (dropItem it s).vitals :=
  .single (.drop _ _ List.erase_sublist)

theorem withdraw_moves (p : Item → Bool) (s : State) : Moves strict s.vitals (withdraw p s).vitals :=
  .single (.drop _ _ List.filter_sublist)

theorem addItem_moves (it : Item) (s : State) (h : strict → s.run.state ≠ .stopped) :
    Moves strict s.vitals (addItem it s).vitals := .single (.arm _ _ h)

theorem armLE_moves (l : Launch) (st : Station) (pos : Pos) (s : State) (h : strict → s.run.state ≠ .stopped) :
    Moves strict s.vitals (armLE l st pos s).vitals := addItem_moves _ s h

theorem armTE_moves (l : Launch) (st : Station) (pos : Pos) (s : State) (h : strict → s.run.state ≠ .stopped) :
    Moves strict s.vitals (armTE l st pos s).vitals := addItem_moves _ s h

theorem armEvent_moves (k : ItemKind) (pos : Pos) (s : State) (h : strict → s.run.state ≠ .stopped) :
    Moves strict s.vitals (armEvent k pos s).vitals := addItem_moves _ s h

/-- An entry is changed that keeps its launch number and is not attached anew. -/
theorem updEntry_moves (l : Launch) (f : PathEntry → PathEntry) (s : State)
    (hl : ∀ e ∈ s.track.path, e.launch = l → (f e).launch = e.launch)
    (hs : ∀ e ∈ s.track.path, e.launch = l → (f e).sheet = none ∨ ∃ y ∈ s.track.path, y.sheet = (f e).sheet) :
    Moves strict s.vitals (updEntry l f s).vitals := by
  refine .single (.path _ _ ?_ ?_)
  · have : (s.track.path.map fun e => if e.launch = l then f e else e).map PathEntry.launch =
        s.track.path.map PathEntry.launch := by
      rw [List.map_map]
      refine List.map_congr_left fun e he => ?_
      by_cases h : e.launch = l
      · simpa [h] using hl e he h
      · simp [h]
    exact this ▸ List.Sublist.refl _
  · intro x hx
    obtain ⟨e, he, rfl⟩ := List.mem_map.mp hx
    by_cases h : e.launch = l
    · rw [if_pos h]; exact hs e he h
    · rw [if_neg h]; exact .inr ⟨e, he, rfl⟩

theorem endSide_moves (l : Launch) (s : State) : Moves strict s.vitals (endSide l s).vitals := by
  unfold endSide
  split
  · exact .refl
  · split
    · exact (Relation.ReflTransGen.single (.blank s.vitals)).trans (withdraw_moves _ _)
    · exact .refl

theorem leavePath_moves (e : PathEntry) (s : State) : Moves strict s.vitals (leavePath e s).vitals := by
  let u := withdraw (fun i => i.kind.launch? == some e.launch) s
  let v := forgetStacker e.launch (endSide e.launch (leaveLoop e.launch e.ident.length u))
  have hside := endSide_moves (strict := strict) e.launch (leaveLoop e.launch e.ident.length u)
  rw [leaveLoop_vitals, ← forgetStacker_vitals e.launch (endSide _ _)] at hside
  have hpath : Move strict v.vitals (leavePath e s).vitals :=
    .path v.vitals (v.track.path.filter fun x => x.launch != e.launch) (List.filter_sublist.map _)
      fun x hx => .inr ⟨x, (List.mem_filter.mp hx).1, rfl⟩
  exact ((withdraw_moves _ s).trans hside).tail hpath

/-! ### Detaching (R112) -/

theorem detach_moves (r : SpoilReason) (e : PathEntry) (s : State) :
    Moves strict s.vitals (detach r e s).vitals := by
  unfold detach
  split
  · let u := updEntry e.launch (PathEntry.detachedAs r) s
    have hu : Moves strict s.vitals u.vitals := updEntry_moves _ _ s (fun _ _ _ => rfl) fun _ _ _ => .inl rfl
    have hloop : (if e.route.isNone = true then leaveLoop e.launch e.ident.length u else u).vitals = u.vitals := by
      split <;> simp
    have hside := hu.trans (hloop ▸ (withdraw_moves (fun i => i.kind == ItemKind.top e.launch) _).trans (endSide_moves e.launch _))
    rw [forgetStacker_vitals]
    exact hside
  · exact .refl

/-- A fold is a chain of moves when each of its steps is. -/
theorem foldl_moves {α : Type} (f : State → α → State) (h : ∀ s a, Moves strict s.vitals (f s a).vitals) (l : List α)
    (s : State) : Moves strict s.vitals (l.foldl f s).vitals := by
  induction l generalizing s with
  | nil => exact .refl
  | cons a l ih => exact (h s a).trans (ih _)

theorem detachAll_moves (r : SpoilReason) (es : List PathEntry) (s : State) :
    Moves strict s.vitals (detachAll r es s).vitals := foldl_moves _ (fun s e => detach_moves r e s) es s

theorem underrun_moves (e : PathEntry) (side : Side) (pos : Pos) (s : State) :
    Moves strict s.vitals (underrun e side pos s).vitals := by
  refine ((detach_moves .underrun e s).trans (detachAll_moves .cascade (s.laterAttached e.ident.seq) _)).trans ?_
  rw [underrun]
  exact (appendHist_remembers _ _ _ _ _ _ (requeue _ _)).moves

/-! ### Giving up a piece (R124 to R126) -/

theorem cancelInPath_moves (p : PieceId) (s : State) : Moves strict s.vitals (cancelInPath p s).vitals :=
  detachAll_moves ..

theorem cancelDelivered_moves (s : State) : Moves strict s.vitals (cancelDelivered s).vitals :=
  .single (.store s.vitals [] fun _ => Nat.zero_le _)

theorem cancelPiece_moves (p : PieceId) (s : State) : Moves strict s.vitals (cancelPiece p s).vitals := by
  have hpath := cancelInPath_moves (strict := strict) p (cancelPending p s)
  rw [cancelPending_vitals] at hpath
  rw [cancelPiece, handRecord_vitals]
  split
  · exact hpath.trans (cancelDelivered_moves _)
  · exact hpath

theorem impliedCancel_moves (s : State) : Moves strict s.vitals (impliedCancel s).vitals := by
  unfold impliedCancel
  split
  · exact .refl
  · next o _ =>
    change Moves strict s.vitals (if s.pieceKnown o.piece = true then cancelPiece o.piece s else s).vitals
    split
    · exact cancelPiece_moves _ s
    · exact .refl

/-! ### Own accesses and slots -/

theorem pushOwn_moves (a : OwnAccess) (s : State) (h : s.pass.own.length < 16) :
    Moves strict s.vitals (pushOwn a s).vitals := .single (.own _ a h)

theorem finishNow_moves (f : Finish) (s : State) (h : s.pass.own.length < 16) :
    Moves strict s.vitals (finishNow f s).vitals := by
  refine (pushOwn_moves { kind := .postWrite, addr := s.slotAddr s.slotIndex + 56, len := 8, data := f.post } s h).trans ?_
  rw [finishNow]
  split
  · refine .trans ?_ (impliedCancel_moves _)
    rw [handOption_vitals]
    exact .refl
  · rw [handOption_vitals]
    exact .refl

theorem finishSlot_moves (f : Finish) (s : State) : Moves strict s.vitals (finishSlot f s).vitals := by
  rcases finishSlot_cases f s with ⟨h, he⟩ | ⟨_, he⟩
  · rw [he]; exact finishNow_moves f s h
  · rw [he]; exact .refl

theorem rejectOrder_moves (r : RejectReason) (slot : List Byte) (s : State) :
    Moves strict s.vitals (rejectOrder r slot s).vitals := finishSlot_moves ..

theorem answerControl_moves (slot : List Byte) (r : ControlResult) (s : State) :
    Moves strict s.vitals (answerControl slot r s).vitals := finishSlot_moves ..

theorem pushSetupRead_moves (s : State) (h : s.pass.own.length < 16) :
    Moves strict s.vitals (pushSetupRead s).vitals :=
  pushOwn_moves _ { s with setup := { s.setup with issued := s.setup.issued + 1 } } h

theorem fillSetupReads_moves (n : Nat) (s : State) : Moves strict s.vitals (fillSetupReads n s).vitals := by
  induction n generalizing s with
  | zero => exact .refl
  | succ n ih =>
    rw [fillSetupReads]
    split
    · next h =>
      simp only [State.ownRoom, Bool.and_eq_true, decide_eq_true_eq] at h
      exact (pushSetupRead_moves s h.1).trans (ih _)
    · exact .refl

theorem noteCommit_moves (s : State) : Moves strict s.vitals (noteCommit s).vitals := by
  unfold noteCommit
  split
  · exact fillSetupReads_moves 16
      { s with setup := { s.setup with fetch := .fetching, issued := 0, done := 0, failed := false, copy := [] } }
  · rw [handRefusal_vitals]

theorem own_lt_of_dumpReady {s : State} {d : Dump} (h : s.dumpReady d = true) : s.pass.own.length < 16 := by
  simp only [State.dumpReady, State.ownRoom, Bool.and_eq_true, decide_eq_true_eq] at h
  exact h.1.1

theorem pushDumpWrite_moves (d : Dump) (s : State) (h : s.pass.own.length < 16) :
    Moves strict s.vitals (pushDumpWrite d s).vitals :=
  pushOwn_moves _ { s with history := { s.history with dump := some { d with issued := d.issued + 1 } } } h

theorem fillDump_moves (n : Nat) (s : State) : Moves strict s.vitals (fillDump n s).vitals := by
  induction n generalizing s with
  | zero => exact .refl
  | succ n ih =>
    rw [fillDump]
    split
    · exact .refl
    · next d _ =>
      split
      · next h => exact (pushDumpWrite_moves d s (own_lt_of_dumpReady h)).trans (ih _)
      · exact .refl

theorem pushZeroHead_moves (s : State) (h : s.pass.own.length < 16) :
    Moves strict s.vitals (pushZeroHead s).vitals :=
  pushOwn_moves _ { s with report := { s.report with headWaits := false } } h

/-! ### Run-state control -/

theorem ne_stopped_of_moving {s : State} (h : s.moving = true) : s.run.state ≠ .stopped := by
  intro hs; simp [State.moving, hs] at h

theorem moving_iff (s : State) : s.moving = true ↔ s.run.state = .running ∨ s.run.state = .draining := by
  simp [State.moving]

theorem drainStep_moves (s : State) : Moves strict s.vitals (drainStep s).vitals := by
  rcases drainStep_cases s with ⟨_, _, _, h⟩ | h
  · rw [h]; exact stopAtP_moves _ s
  · rw [h]

/-- STARTING ends at speed (R42). -/
theorem atSpeed_moves (s : State) (hs : s.run.state = .starting) (ht : s.pins.tready = true) :
    Moves strict s.vitals (atSpeed s).vitals := by
  rw [atSpeed, changeRun_vitals]
  refine .single (.speed s.vitals _ hs ht ?_)
  split
  · exact .inr rfl
  · exact .inl rfl

theorem startStep_moves (s : State) : Moves strict s.vitals (startStep s).vitals := by
  rcases startStep_cases s with ⟨hidle, hc, h⟩ | h
  · rw [h]
    simp only [State.startCondition, Bool.and_eq_true] at hc
    let u : State := { changeRun .starting none s with run := { (changeRun .starting none s).run with timer := some 0 } }
    have hu : u.vitals = { s.vitals with state := .starting, timer := some 0 } := by
      change { (changeRun .starting none s).vitals with timer := some 0 } = _
      rw [changeRun_vitals]
    have hstart : Moves strict s.vitals u.vitals := hu ▸ .single (.start _ hidle hc.2)
    have hstate : u.run.state = .starting := congrArg Vitals.state hu
    rw [enterStarting]
    split
    · next ht => exact hstart.trans (atSpeed_moves u hstate ht)
    · exact hstart
  · rw [h]

theorem fallIdle_moves (s : State) (h : s.moving = true) : Moves strict s.vitals (fallIdle s).vitals := by
  rw [fallIdle, changeRun_vitals]
  exact .single (.shift _ _ ((moving_iff s).mp h) (.inr (.inr rfl)))

theorem idleStep_moves (s : State) : Moves strict s.vitals (idleStep s).vitals := by
  unfold idleStep
  split
  · next h =>
    have hm : s.moving = true := by
      simp only [State.idleCondition, Bool.and_eq_true] at h
      exact h.1.1.1
    split
    · exact .refl
    · split
      · exact fallIdle_moves s hm
      · exact armEvent_moves _ _ s fun _ => ne_stopped_of_moving hm
  · exact withdraw_moves _ s

theorem decideRun_moves (s : State) : Moves strict s.vitals (decideRun s).vitals :=
  ((drainStep_moves s).trans (startStep_moves _)).trans (idleStep_moves _)

/-! ### The planner -/

theorem armGap_moves (pos : Pos) (s : State) (h : strict → s.run.state ≠ .stopped) :
    Moves strict s.vitals (armGap pos s).vitals := by
  unfold armGap
  split
  · exact .single (.gap _)
  · exact (Relation.ReflTransGen.single (.plan s.vitals s.plan.staged false s.plan.lastRelease h)).trans
      (armEvent_moves .gap pos { s with plan := { s.plan with gapMet := false } } h)

theorem armLeg_moves (e : PathEntry) (pos : Pos) (s : State) (h : strict → s.run.state ≠ .stopped) :
    Moves strict s.vitals (armLeg e pos s).vitals := by
  let u := armEvent (.div e.launch) (plus pos s.cfg.dDv) (armLE e.launch .xfer (plus pos s.cfg.dX) s)
  have hu : Moves strict s.vitals u.vitals :=
    (armLE_moves e.launch .xfer _ s h).trans (armEvent_moves _ _ (armLE e.launch .xfer _ s) h)
  unfold armLeg
  split
  · exact hu.trans (armEvent_moves _ _ u h)
  · exact hu

theorem release_moves (e : PathEntry) (s : State) (he : e ∈ s.track.path) (h : s.run.state ≠ .stopped) :
    Moves strict s.vitals (release e s).vitals := by
  let e' := e.releasedAt s.time.pos s.tally.nextSerial
  let u := updEntry e.launch (fun _ => e') (emit .gate s)
  have hu : Moves strict s.vitals u.vitals :=
    updEntry_moves e.launch (fun _ => e') (emit .gate s) (fun _ _ hl => hl.symm) fun _ _ _ => .inr ⟨e, he, rfl⟩
  let v := takeSerial e { u with plan := { u.plan with staged := none } }
  have hv : Moves strict u.vitals v.vitals := by
    rw [takeSerial_vitals]
    exact .single (.plan u.vitals none u.plan.gapMet u.plan.lastRelease fun _ => h)
  have hvs : v.run.state = s.run.state := by simp [v, u]
  let w := armLeg e s.time.pos v
  have hw : Moves strict v.vitals w.vitals := armLeg_moves e _ v fun _ => hvs ▸ h
  have hwn : w.run.state ≠ .stopped := by simpa [w, hvs] using h
  let x : State :=
    { w with
      plan :=
        { w.plan with
          lastRelease := some (s.time.pos, e.ident.length)
          lastStacker := if e.towardStacker then some (e.launch, e.ident.output) else w.plan.lastStacker } }
  have hx : Moves strict w.vitals x.vitals :=
    .single (.plan w.vitals w.plan.staged w.plan.gapMet (some (s.time.pos, e.ident.length)) fun _ => hwn)
  have hgap : Moves strict x.vitals (noteRelease e s.time.pos w).vitals := armGap_moves _ x fun _ => hwn
  exact ((((hu.trans hv).trans hw).trans hx).trans hgap).trans (sheetEvent_remembers ..).moves

theorem mem_of_entry? {s : State} {l : Launch} {e : PathEntry} (h : s.entry? l = some e) : e ∈ s.track.path :=
  List.mem_of_find?_eq_some h

theorem moving_of_releasable {s : State} {e : PathEntry} (h : s.releasable e = true) : s.moving = true := by
  simp only [State.releasable, Bool.and_eq_true] at h
  exact h.1.2

theorem tryRelease_moves (s : State) : Moves strict s.vitals (tryRelease s).vitals := by
  rcases tryRelease_cases s with ⟨l, e, _, he, hr, h⟩ | h
  · rw [h]; exact release_moves e s (mem_of_entry? he) (ne_stopped_of_moving (moving_of_releasable hr))
  · rw [h]

theorem refeed_moves (e : PathEntry) (s : State) (he : e ∈ s.track.path) (h : s.run.state ≠ .stopped) :
    Moves strict s.vitals (refeed e s).vitals := by
  let e' := e.refedAt s.time.pos
  let u := updEntry e.launch (fun _ => e') (emit .refeed s)
  have hu : Moves strict s.vitals u.vitals :=
    updEntry_moves e.launch (fun _ => e') (emit .refeed s) (fun _ _ hl => hl.symm) fun _ _ _ => .inr ⟨e, he, rfl⟩
  have ha := armLE_moves (strict := strict) e.launch .loopout s.time.pos u fun _ => h
  have hb := armLE_moves (strict := strict) e.launch .reg (plus s.time.pos s.cfg.dLr) (armLE e.launch .loopout s.time.pos u)
    fun _ => h
  let w := armLE e.launch .reg (plus s.time.pos s.cfg.dLr) (armLE e.launch .loopout s.time.pos u)
  have hc := armTE_moves (strict := strict) e.launch .loopout (plus s.time.pos e.ident.length) w fun _ => h
  let x := armTE e.launch .loopout (plus s.time.pos e.ident.length) w
  have hd : Move strict x.vitals { x.vitals with staged := some e.launch } :=
    .plan x.vitals (some e.launch) x.plan.gapMet x.plan.lastRelease fun _ => h
  exact ((((hu.trans ha).trans hb).trans hc).tail hd).trans
    (appendHist_remembers _ _ _ _ _ _ { x with plan := { x.plan with staged := some e.launch } }).moves

end Sys2Proof.Machine
end

section
/-! The commands as chains of moves: edges, the port, orders, own accesses, time and lines. -/

namespace Sys2Proof.Machine

variable {strict : Prop}

/-! ### Expiries and edges -/

theorem expireItem_moves (it : Item) (s : State) : Moves strict s.vitals (expireItem it s).vitals := by
  rcases expireItem_cases it s with ⟨l, st, e, _, h⟩ | h
  · rw [h]; exact (dropItem_moves it s).trans (pathFault_moves ..)
  · rw [h]

theorem armLegLE_moves (l : Launch) (st : Station) (pos : Pos) (s : State) (h : strict → s.run.state ≠ .stopped) :
    Moves strict s.vitals (armLegLE l st pos s).vitals := by
  have harm := armLE_moves l st pos s h
  unfold armLegLE
  dsimp only
  split
  · exact harm
  · exact harm.trans (expireItem_moves ..)

theorem armTerminal_moves (e : PathEntry) (r : Route) (s : State) (h : strict → s.run.state ≠ .stopped) :
    Moves strict s.vitals (armTerminal e r s).vitals := armLegLE_moves _ _ _ s h

/-- A change of an entry's phase, route or flags. -/
theorem updEntry_moves_of_fields (l : Launch) (f : PathEntry → PathEntry) (s : State)
    (hl : ∀ e, (f e).launch = e.launch) (hs : ∀ e, (f e).sheet = e.sheet) :
    Moves strict s.vitals (updEntry l f s).vitals :=
  updEntry_moves l f s (fun e _ _ => hl e) fun e he _ => .inr ⟨e, he, (hs e).symm⟩

theorem trackLE_moves (e : PathEntry) (st : Station) (q : Pos) (s : State) (h : strict → s.run.state ≠ .stopped) :
    Moves strict s.vitals (trackLE e st q s).vitals := by
  have phased (p : Phase) : Moves strict s.vitals (updEntry e.launch (fun x => { x with phase := p }) s).vitals :=
    updEntry_moves_of_fields _ _ s (fun _ => rfl) fun _ => rfl
  have exits (p : Phase) (st : Station) : Moves strict s.vitals
      (armTE e.launch st (plus q e.ident.length) (updEntry e.launch (fun x => { x with phase := p }) s)).vitals :=
    (phased p).trans (armTE_moves _ _ _ _ h)
  cases st
  case feed1 | feed2 | feed3 | feed4 | loopout => exact .refl
  case reg =>
    rw [trackLE]
    split
    · exact phased _
    · exact .refl
  case xfer => exact armLegLE_moves _ _ _ s h
  case fuse =>
    let u := updEntry e.launch (fun x => { x with fuseReached := true }) s
    have hu : Moves strict s.vitals (armTE e.launch .fuse (plus q e.ident.length) u).vitals :=
      (updEntry_moves_of_fields e.launch (fun x => { x with fuseReached := true }) s (fun _ => rfl) fun _ => rfl).trans
        (armTE_moves _ _ _ u h)
    simp only [trackLE]
    (repeat' split)
    · exact hu
    · exact hu.trans (armTerminal_moves _ _ _ h)
    · exact hu
  case loopin | stka | stkb | purge => exact exits _ _

theorem metLE_moves (e : PathEntry) (st : Station) (q : Pos) (s : State) (h : strict → s.run.state ≠ .stopped) :
    Moves strict s.vitals (metLE e st q s).vitals :=
  (sheetEvent_remembers ..).moves.trans (trackLE_moves e st q _ (by simpa using h))

theorem deliver_moves (e : PathEntry) (x : LogicalSheet) (k : Stacker) (q : Pos) (s : State) :
    Moves strict s.vitals (deliver e x k q s).vitals := by
  have hstore (serial : Serial) (d : Disposal) (t : State) (ht : t.vitals = { s.vitals with store := d.store })
      (hd : s.track.store.length ≤ 32 → d.store.length ≤ 32) :
      Moves strict s.vitals t.vitals := ht ▸ .single (.store _ _ hd)
  rw [deliver]
  refine Relation.ReflTransGen.trans ?_ (sheetEvent_remembers ..).moves
  refine Relation.ReflTransGen.trans ?_ (leavePath_moves ..)
  exact .single (.store s.vitals _ (disposal_store_length _ _ _ x))

theorem spoiledExit_moves (e : PathEntry) (st : Station) (q : Pos) (s : State) :
    Moves strict s.vitals (spoiledExit e st q s).vitals :=
  (reportSpoiled_remembers ..).moves.trans (leavePath_moves ..)

theorem exitStacker_moves (e : PathEntry) (k : Stacker) (q : Pos) (s : State) :
    Moves strict s.vitals (exitStacker e k q s).vitals := by
  unfold exitStacker
  split
  · exact deliver_moves ..
  · exact spoiledExit_moves ..

theorem parkEntry_moves (l : Launch) (s : State) : Moves strict s.vitals (parkEntry l s).vitals :=
  updEntry_moves_of_fields _ _ s (fun _ => rfl) fun _ => rfl

theorem armPark_moves (l : Launch) (pos : Pos) (s : State) (h : strict → s.run.state ≠ .stopped) :
    Moves strict s.vitals (armPark l pos s).vitals := by
  unfold armPark
  split
  · exact parkEntry_moves l s
  · exact armEvent_moves _ _ s h

theorem trackTE_moves (e : PathEntry) (st : Station) (q : Pos) (s : State) (h : strict → s.run.state ≠ .stopped) :
    Moves strict s.vitals (trackTE e st q s).vitals := by
  cases st
  case feed1 | feed2 | feed3 | feed4 | reg | xfer | fuse => exact .refl
  case loopin =>
    rw [trackTE]
    split
    · exact armPark_moves _ _ s h
    · exact .refl
  case loopout => rw [trackTE, leaveLoop_vitals]
  case stka | stkb => exact exitStacker_moves ..
  case purge =>
    rw [trackTE]
    split
    · exact .refl
    · exact spoiledExit_moves ..

theorem metTE_moves (e : PathEntry) (st : Station) (q : Pos) (s : State) (h : strict → s.run.state ≠ .stopped) :
    Moves strict s.vitals (metTE e st q s).vitals :=
  (sheetEvent_remembers ..).moves.trans (trackTE_moves e st q _ (by simpa using h))

theorem matchEdge_moves (e : Edge) (st : Station) (it : Item) (x : PathEntry) (q : Pos) (s : State)
    (h : strict → s.run.state ≠ .stopped) : Moves strict s.vitals (matchEdge e st it x q s).vitals := by
  unfold matchEdge
  split
  · cases e
    · exact (dropItem_moves it s).trans (metLE_moves x st q _ h)
    · exact (dropItem_moves it s).trans (metTE_moves x st q _ h)
  · exact pathFault_moves ..
  · exact expireItem_moves ..

theorem offerEdge_moves (e : Edge) (st : Station) (q : Pos) (s : State) :
    Moves strict s.vitals (offerEdge e st q s).vitals := by
  rcases offerEdge_cases e st q s with h | ⟨_, h⟩ | ⟨it, _, h⟩ | ⟨it, x, _, hm, _, h⟩ <;> rw [h]
  · exact stop_moves ..
  · exact dropItem_moves it s
  · exact matchEdge_moves e st it x q s fun _ => ne_stopped_of_moving hm

theorem divert_moves (e : PathEntry) (s : State) (h : strict → s.run.state ≠ .stopped) :
    Moves strict s.vitals (divert e s).vitals := by
  have hu : Moves strict s.vitals (s.routed e (routeOf e)).vitals :=
    updEntry_moves_of_fields e.launch (fun x => { x with route := some (routeOf e), divTaken := true }) s
      (fun _ => rfl) fun _ => rfl
  rw [divert_eq]
  split
  · exact hu.trans (armTerminal_moves _ _ _ h)
  · exact hu

theorem topEvent_moves (e : PathEntry) (side : Side) (r : SideRec) (pos : Pos) (s : State)
    (h : strict → s.run.state ≠ .stopped) : Moves strict s.vitals (topEvent e side r pos s).vitals := by
  rw [topEvent]
  refine Relation.ReflTransGen.trans ?_ (sheetEvent_remembers ..).moves
  refine Relation.ReflTransGen.trans ?_ (armEvent_moves _ _ _ h)
  exact .single (.image s.vitals _ (.inr h))

theorem checkSide_moves (e : PathEntry) (c : CurrentSide) (pos : Pos) (s : State) :
    Moves strict s.vitals (checkSide e c pos s).vitals := by
  have hb : Moves strict s.vitals { s.vitals with current := none } := .single (.blank _)
  unfold checkSide
  dsimp only
  split
  · exact hb.trans (underrun_moves _ _ _ { s with image := { s.image with current := none } })
  · exact hb

theorem completeChange_moves (line : Fin 16) (st : Station) (ch : PendingChange) (s : State) :
    Moves strict s.vitals (completeChange line st ch s).vitals :=
  offerEdge_moves _ _ _ (setLine line { stable := ch.level, change := none } s)

theorem rawChange_moves (line : Fin 16) (st : Station) (level : Bool) (s : State) :
    Moves strict s.vitals (rawChange line st level s).vitals := by
  unfold rawChange
  split
  · unfold abandonChange
    dsimp only
    split
    · exact .refl
    · exact expireItem_moves _ (setLine line { stable := s.expect.lines[line].stable, change := none } s)
  · split
    · exact .refl
    · unfold openChange
      dsimp only
      split
      · exact completeChange_moves ..
      · exact .refl

/-! ### The port -/

theorem completeWrite_moves (f : Forwarded) (s : State) : Moves strict s.vitals (completeWrite f s).vitals := by
  rw [completeWrite, emit_vitals]
  let u := match s.postOf f.access with
    | none => s
    | some i => notePost i s
  have hu : u.vitals = s.vitals := by dsimp only [u]; split <;> rfl
  have hw : Moves strict s.vitals (if s.isCommit f.access = true then noteCommit u else u).vitals := by
    rw [← hu]
    split
    · exact noteCommit_moves u
    · exact .refl
  split
  · rw [noteTail_vitals]; exact hw
  · exact hw

theorem completeRead_moves (f : Forwarded) (data : List Byte) (s : State) :
    Moves strict s.vitals (completeRead f data s).vitals := by
  unfold completeRead
  split
  · exact .refl
  · next c hc =>
    split
    · refine .single (.image s.vitals _ (.inl ?_))
      exact fun h => absurd (hc.symm.trans h) (by simp)
    · exact .refl

theorem atPort_moves (a : Access) (s : State) : Moves strict s.vitals (atPort a s).vitals := by
  rcases atPort_cases a s with ⟨hroom, h⟩ | ⟨_, h⟩
  · rw [h, takeAccess]
    dsimp only
    split
    · rw [emit_vitals, offerAccess, offer_vitals, begin_vitals]
    · let j := if a.write = true then (begin s).judge a ((begin s).classOf a.tag) else (none, .pass)
      let f : Forwarded := { access := a, cls := (begin s).classOf a.tag }
      let u := offerAccess a j.2 (recordPolicy j.1 j.2 f (begin s))
      have hu : u.vitals = s.vitals := by
        dsimp only [u]
        rw [offerAccess, offer_vitals, recordPolicy_vitals, begin_vitals]
      have hfwd : u.pass.fwd.length < 8 := by
        change u.vitals.fwd.length < 8
        rw [hu]; exact hroom
      change Moves strict s.vitals (portOutcome j.2 f u).vitals
      rw [← hu]
      cases j.2
      · exact .single (.forward u.vitals f hfwd)
      · exact .refl
      · exact .refl
  · rw [h]
    exact .refl

/-! ### Orders -/

theorem resumeWork_moves (s : State) : Moves strict s.vitals (resumeWork s).1.vitals := by
  unfold resumeWork
  dsimp only
  split
  · next h =>
    rw [changeRun_vitals]
    exact .single (.shift s.vitals .running (.inr h.1) (.inl rfl))
  · exact .refl

theorem standbyWork_moves (s : State) : Moves strict s.vitals (standbyWork s).1.vitals := by
  unfold standbyWork
  dsimp only
  split
  · next h =>
    rw [changeRun_vitals]
    exact .single (.shift s.vitals .draining (.inl h) (.inr (.inl rfl)))
  · exact .refl

theorem clearedWork_moves (s : State) : Moves strict s.vitals (clearedWork s).1.vitals := by
  unfold clearedWork
  split
  · exact .refl
  · next hs =>
    split
    · exact .refl
    · split
      · exact .refl
      · refine Relation.ReflTransGen.trans (.single ?_) (appendHist_remembers ..).moves
        rw [changeRun_vitals, leaveEstimate_vitals, clearPath_vitals]
        exact .clear s.vitals (not_not.mp hs)

theorem cancelWork_moves (p : PieceId) (s : State) : Moves strict s.vitals (cancelWork p s).1.vitals := by
  unfold cancelWork
  split
  · rw [closeOpen_vitals]; exact cancelPiece_moves p s
  · rw [closeOpen_vitals]

theorem watchWork_moves (slot : List Byte) (s : State) : Moves strict s.vitals (watchWork slot s).1.vitals := by
  unfold watchWork
  dsimp only
  (repeat' split) <;> simp only [setUnit_vitals] <;> exact .refl

theorem dumpWork_moves (slot : List Byte) (s : State) : Moves strict s.vitals (dumpWork slot s).1.vitals := by
  unfold dumpWork
  dsimp only
  (repeat' split)
  · exact .refl
  · rw [endDump_vitals]
  · exact fillDump_moves 8 { s with history := { s.history with dump := some (newDump slot s) } }

theorem tallyWork_moves (serial : Serial) (s : State) : Moves strict s.vitals (tallyWork serial s).1.vitals := by
  unfold tallyWork
  (repeat' split) <;> exact .refl

theorem controlOrder_moves (wf : Bool) (work : State → State × ControlResult) (slot : List Byte) (s : State)
    (hw : Moves strict s.vitals (work s).1.vitals) :
    Moves strict s.vitals (controlOrder wf work slot s).vitals := by
  rcases controlOrder_cases wf work slot s with ⟨_, h⟩ | ⟨_, _, h⟩ | ⟨_, _, h⟩ <;> rw [h]
  · exact rejectOrder_moves ..
  · exact rejectOrder_moves ..
  · exact (hw.trans (decideRun_moves _)).trans (answerControl_moves ..)

theorem handleSheet_moves (slot : List Byte) (s : State) : Moves strict s.vitals (handleSheet slot s).vitals := by
  unfold handleSheet
  split
  · exact .refl
  · split
    · exact rejectOrder_moves ..
    · rw [← acceptSheet_vitals slot s]; exact finishSlot_moves ..

/-! ### Own accesses, setup and time -/

theorem acceptable_iff (s : State) : s.acceptable = true ↔
    s.run.state = .unset ∨
      s.run.state = .idle ∧ s.fetch.schedule = [] ∧ s.fetch.openPiece = none ∧ s.track.store = [] ∧ s.track.path = [] := by
  simp [State.acceptable, and_assoc]

/-- The head-word write of 0 joins the own-access FIFO with room, in whatever run state (R151). -/
theorem headOfAcceptance_moves (r : RunState) (s : State) :
    Moves strict { (acceptBlocks s).vitals with state := r }
      { (headOfAcceptance (acceptBlocks s)).vitals with state := r } := by
  rw [headOfAcceptance]
  split
  · exact .refl
  · next h =>
    have hroom : s.pass.own.length < 16 := by simpa [acceptBlocks, State.ownRoom] using h
    exact .single (.own { (acceptBlocks s).vitals with state := r } _ hroom)

theorem acceptSetup_vitals (s : State) (h : s.acceptable = true) :
    (acceptSetup s).vitals =
      { (headOfAcceptance (acceptBlocks (enforceSetup s))).vitals with state := .idle } := by
  have hidle : s.run.state ≠ .unset → s.run.state = .idle := fun hn =>
    ((acceptable_iff s).mp h).elim (absurd · hn) (·.1)
  let v := handAcceptance s.copyRevision (headOfAcceptance (acceptBlocks (enforceSetup s)))
  have hv : v.run.state = s.run.state := by simp [v]
  have hw : v.vitals = (headOfAcceptance (acceptBlocks (enforceSetup s))).vitals := rfl
  change (if v.run.state = .unset then changeRun .idle none v else v).vitals = _
  split
  · rw [changeRun_vitals, hw]
  · next hn => rw [← hw, ← hidle (hv ▸ hn), ← hv]; rfl

theorem acceptSetup_moves (s : State) (h : s.acceptable = true) : Moves strict s.vitals (acceptSetup s).vitals := by
  have hs : s.run.state = .unset ∨ s.run.state = .idle ∧ s.track.path = [] :=
    ((acceptable_iff s).mp h).imp_right fun ⟨hidle, _, _, _, hp⟩ => ⟨hidle, hp⟩
  have hmove : Move strict s.vitals { (acceptBlocks (enforceSetup s)).vitals with state := .idle } :=
    .accept s.vitals (parseSetup s.setup.copy) hs
  rw [acceptSetup_vitals s h]
  exact .head hmove (headOfAcceptance_moves .idle (enforceSetup s))

theorem moving_of_declaresLoss {s : State} (h : s.declaresLoss = true) : s.moving = true := by
  simp only [State.declaresLoss, State.silentTick, State.watchCondition, Bool.and_eq_true] at h
  exact h.1.1.1.1

theorem declareLoss_moves (s : State) (h : s.moving = true) : Moves strict s.vitals (declareLoss s).vitals := by
  unfold declareLoss
  split
  · exact stopAtP_moves ..
  · let u := handLost (enterEstimate s)
    have hstate : u.run.state = s.run.state := rfl
    have hu : Moves strict s.vitals u.vitals :=
      (Relation.ReflTransGen.single (.time s.vitals 0 0 (by decide) (by decide))).tail
        (.arm _ u.expect.items fun _ => ne_stopped_of_moving h)
    dsimp only
    split
    · rw [changeRun_vitals]
      exact hu.tail (.shift u.vitals .draining ((moving_iff s).mp h) (.inr (.inl rfl)))
    · exact hu

theorem tickWork_moves (s : State) : Moves strict s.vitals (tickWork s).vitals := by
  have ht : Moves strict s.vitals (countTick s).vitals := .single (.tick _)
  unfold tickWork
  dsimp only
  split
  · exact ht.trans (stopAtP_moves ..)
  · split
    · next hloss => exact ht.trans (declareLoss_moves (countTick s) (moving_of_declaresLoss (s := s) hloss))
    · split
      · rw [estimateTick_vitals]
        exact ht.tail (.time _ _ _ (Nat.mod_lt _ (by decide)) (min_le_right _ _))
      · exact ht

/-! ### Lines -/

theorem treadyUp_moves (s : State) (ht : s.pins.tready = true) : Moves strict s.vitals (treadyUp s).vitals := by
  unfold treadyUp
  split
  · next hs => exact atSpeed_moves s hs ht
  · exact .refl

/-- A falling TREADY stops a moving controller before it is low (R43). -/
theorem treadyFall_moves (s : State) :
    Moves strict s.vitals (stopAtP .transportLost (setTready false s)).vitals := by
  cases h : stopsIn .transportLost s.run.state
  · rw [stopAtP, stop, setTready, h]
    exact .single (.tready s.vitals false fun _ => by simpa [stopsIn] using h)
  · obtain ⟨path, store, entries, he, hl, hd, hs, hes⟩ :=
      stop_vitals .transportLost none s.time.pos none none (setTready false s) h
    rw [stopAtP]
    refine he ▸ (Relation.ReflTransGen.single
      (.stop s.vitals path store entries (ne_of_stopsIn h) hl hd hs hes)).tail (.tready _ false ?_)
    exact fun _ => ⟨nofun, nofun⟩

/-- A falling COVER stops the transport before it is low (R43). -/
theorem coverFall_moves (s : State) :
    Moves strict s.vitals (stopAtP .coverOpen (setCover false s)).vitals := by
  cases h : stopsIn .coverOpen s.run.state
  · rw [stopAtP, stop, setCover, h]
    exact .single (.cover s.vitals false fun _ => by simpa [stopsIn, and_assoc] using h)
  · obtain ⟨path, store, entries, he, hl, hd, hs, hes⟩ :=
      stop_vitals .coverOpen none s.time.pos none none (setCover false s) h
    rw [stopAtP]
    refine he ▸ (Relation.ReflTransGen.single
      (.stop s.vitals path store entries (ne_of_stopsIn h) hl hd hs hes)).tail (.cover _ false ?_)
    exact fun _ => ⟨nofun, nofun, nofun⟩

/-! ### Commands -/

/-- A command answers a chain of moves, which the end of an event may follow. -/
def Outcome.isMoves (strict : Prop) (s t : State) : Prop :=
  ∃ d : State, Moves strict s.vitals d.vitals ∧ (t = d ∨ t = settle d)

theorem isMoves_of_moves {s t : State} (h : Moves strict s.vitals t.vitals) : Outcome.isMoves strict s t :=
  ⟨t, h, .inl rfl⟩

theorem isMoves_settle {s d : State} (h : Moves strict s.vitals d.vitals) : Outcome.isMoves strict s (settle d) :=
  ⟨d, h, .inr rfl⟩

theorem isMoves_refl (s : State) : Outcome.isMoves strict s s := isMoves_of_moves .refl

theorem onOrder_isMoves (k : Nat) (slot : List Byte) (body : State → State) (s : State)
    (hb : ∀ t, Moves strict t.vitals (body t).vitals) : Outcome.isMoves strict s (onOrder k slot body s) := by
  rcases onOrder_cases k slot body s with ⟨_, _, _, h⟩ | h <;> rw [h]
  · exact isMoves_settle (hb (freePort (begin s)))
  · exact isMoves_refl s

theorem ne_stopped_of_dueItem {s : State} {k : ItemKind} {it : Item} (h : s.dueItem k = some it)
    (hs : strict → s.run.state = .stopped → s.expect.items = []) : strict → s.run.state ≠ .stopped := by
  intro hb hst
  simp [State.dueItem, hs hb hst] at h

/-- Every command but a reset is a chain of moves and, at most, the end of an event. -/
theorem exec_isMoves {c : Instr} {s t : State} (h : exec c s = .next t) (hr : isReset c = false)
    (hs : strict → s.run.state = .stopped → s.expect.items = []) : Outcome.isMoves strict s t := by
  cases c
  case systemReset | powerOnReset => simp [isReset] at hr
  all_goals
    clear hr
    injection h with h
    subst h
  case boardBusWrite => exact isMoves_of_moves (atPort_moves ..)
  case boardBusRead => exact isMoves_of_moves (atPort_moves ..)
  case memoryPortGrant =>
    split
    · exact isMoves_of_moves (.single (.grant (begin s)))
    · exact isMoves_refl s
  case orderPost | commitWrite | tailWrite =>
    split
    · exact isMoves_refl s
    · split
      · exact isMoves_of_moves (completeWrite_moves _ (freePort (begin s)))
      · exact isMoves_refl s
  case forwardedWriteComplete =>
    split
    · exact isMoves_refl s
    · split
      · exact isMoves_of_moves (completeWrite_moves _ (freePort (begin s)))
      · exact isMoves_of_moves .refl
  case forwardedReadComplete =>
    split
    · exact isMoves_refl s
    · split
      · split
        · exact isMoves_of_moves (completeRead_moves _ _ (freePort (begin s)))
        · exact isMoves_refl s
      · exact isMoves_of_moves .refl
  case slotReadIssue =>
    split
    · next h =>
      have hroom : s.pass.own.length < 16 := by
        simp only [State.mayFetch, State.ownRoom, Bool.and_eq_true, decide_eq_true_eq] at h
        exact h.2
      exact isMoves_of_moves (pushOwn_moves _ { begin s with fetch := { s.fetch with inHand := some s.fetch.next } } hroom)
    · exact isMoves_refl s
  case stalePost =>
    split
    · exact isMoves_of_moves .refl
    · exact isMoves_refl s
  case kindUnknown =>
    split
    · exact isMoves_settle (rejectOrder_moves _ _ (freePort (begin s)))
    · exact isMoves_refl s
  case sheet slot => exact onOrder_isMoves _ _ _ _ (handleSheet_moves slot)
  case hold slot => exact onOrder_isMoves _ _ _ _ fun t => controlOrder_moves _ _ _ t .refl
  case resume slot => exact onOrder_isMoves _ _ _ _ fun t => controlOrder_moves _ _ _ t (resumeWork_moves t)
  case standby slot => exact onOrder_isMoves _ _ _ _ fun t => controlOrder_moves _ _ _ t (standbyWork_moves t)
  case cleared slot => exact onOrder_isMoves _ _ _ _ fun t => controlOrder_moves _ _ _ t (clearedWork_moves t)
  case cancel slot => exact onOrder_isMoves _ _ _ _ fun t => controlOrder_moves _ _ _ t (cancelWork_moves _ t)
  case watch slot => exact onOrder_isMoves _ _ _ _ fun t => controlOrder_moves _ _ _ t (watchWork_moves slot t)
  case dump slot => exact onOrder_isMoves _ _ _ _ fun t => controlOrder_moves _ _ _ t (dumpWork_moves slot t)
  case tally slot => exact onOrder_isMoves _ _ _ _ fun t => controlOrder_moves _ _ _ t (tallyWork_moves _ t)
  case ownAccessHandover block =>
    split
    · next hroom =>
      have hroom : s.pass.own.length < 16 := by simpa [State.ownRoom] using hroom
      cases block
      case fetcher =>
        simp only [handOver]
        split
        · exact isMoves_refl s
        · exact isMoves_settle (finishNow_moves _ (begin s) hroom)
      case setup =>
        simp only [handOver]
        split
        · exact isMoves_of_moves (pushSetupRead_moves (begin s) hroom)
        · exact isMoves_refl s
      case report =>
        simp only [handOver]
        split
        · exact isMoves_of_moves (pushZeroHead_moves (begin s) hroom)
        · exact isMoves_refl s
      case history =>
        simp only [handOver]
        split
        · exact isMoves_refl s
        · split
          · exact isMoves_of_moves (pushDumpWrite_moves _ (begin s) hroom)
          · exact isMoves_refl s
    · exact isMoves_refl s
  case postWordWritebackComplete | headWordWriteComplete => split <;> exact isMoves_of_moves .refl
  case setupFetchReadComplete | dumpWriteComplete =>
    split
    · exact isMoves_of_moves (by simp only [noteSetupRead_vitals, noteDumpWrite_vitals]; exact .refl)
    · exact isMoves_refl s
  case setupDecision =>
    split
    · split
      · exact isMoves_of_moves (by rw [refuseSetup_vitals]; rfl)
      · next href =>
        have hacc : s.acceptable = true := by
          by_contra hn
          rw [State.refusal, if_pos (by simpa using hn)] at href
          cases href
        exact isMoves_settle (acceptSetup_moves (begin s) hacc)
    · exact isMoves_refl s
  case recordWriteIssue =>
    split
    · exact isMoves_refl s
    · split
      · next q qs _ hmay =>
        have hroom : s.pass.own.length < 16 := by
          simp only [State.mayWriteRecord, State.ownRoom, Bool.and_eq_true, decide_eq_true_eq] at hmay
          exact hmay.2
        exact isMoves_of_moves (.single (.own s.vitals _ hroom))
      · exact isMoves_refl s
  case recordWriteComplete =>
    split
    · exact isMoves_refl s
    · split
      · exact isMoves_settle (by rw [recordWritten_vitals]; rfl)
      · exact isMoves_refl s
  case headWordWriteIssue =>
    split
    · next hmay =>
      have hroom : s.pass.own.length < 16 := by
        simp only [State.mayWriteHead, State.ownRoom, Bool.and_eq_true, decide_eq_true_eq] at hmay
        exact hmay.2
      exact isMoves_of_moves (.single (.own s.vitals _ hroom))
    · exact isMoves_refl s
  case ownAccessError =>
    split
    · exact isMoves_refl s
    · next a _ =>
      have hblock : (blockError a.kind (flagError (freePort (begin s)))).vitals = s.vitals := by simp
      rcases ownError_cases a.kind (freePort (begin s)) with ⟨_, he⟩ | ⟨_, he⟩ <;> rw [he]
      · exact isMoves_settle (hblock ▸ .refl)
      · exact isMoves_settle (hblock ▸ stopAtP_moves _ _)
  case encPulse =>
    split <;> exact isMoves_of_moves (by simp only [estimatePulse_vitals, encoderPulse_vitals]; rfl)
  case tick => exact isMoves_settle (tickWork_moves (begin s))
  case encoderLoss | startTimerExpiry =>
    split
    · exact isMoves_settle (tickWork_moves (begin s))
    · exact isMoves_refl s
  case treadyRise =>
    split
    · exact isMoves_refl s
    · exact isMoves_settle (.head (.tready s.vitals true (by simp)) (treadyUp_moves (setTready true (begin s)) rfl))
  case treadyFall =>
    split
    · exact isMoves_settle (treadyFall_moves (begin s))
    · exact isMoves_refl s
  case coverRise =>
    split
    · exact isMoves_refl s
    · exact isMoves_settle (.single (.cover s.vitals true (by simp)))
  case coverFall =>
    split
    · exact isMoves_settle (coverFall_moves (begin s))
    · exact isMoves_refl s
  case trayrdyChange =>
    split
    · exact isMoves_refl s
    · exact isMoves_settle .refl
  case stkfullChange =>
    split
    · exact isMoves_refl s
    · exact isMoves_settle (by rw [setStacker_vitals]; rfl)
  case sensorLevelChange line level =>
    split
    · exact isMoves_refl s
    · split
      · exact isMoves_of_moves .refl
      · exact isMoves_settle (rawChange_moves _ _ _ (setSensor line level (begin s)))
  case debounceCompletion =>
    split
    · split
      · exact isMoves_settle (completeChange_moves _ _ _ (begin s))
      · exact isMoves_refl s
    · exact isMoves_refl s
  case expectationExpiry =>
    split
    · exact isMoves_refl s
    · exact isMoves_settle (expireItem_moves _ (begin s))
  case div =>
    split
    · next it e hit _ =>
      exact isMoves_settle ((dropItem_moves it (begin s)).trans
        (divert_moves e (dropItem it (begin s)) (ne_stopped_of_dueItem (s := s) hit hs)))
    · exact isMoves_refl s
  case park =>
    split
    · next it e _ _ => exact isMoves_settle ((dropItem_moves it (begin s)).trans (parkEntry_moves ..))
    · exact isMoves_refl s
  case top =>
    split
    · next it e hit _ =>
      refine isMoves_settle ((dropItem_moves it (begin s)).trans ?_)
      unfold fireTop
      split
      · exact .refl
      · exact topEvent_moves _ _ _ _ (dropItem it (begin s)) (ne_stopped_of_dueItem (s := s) hit hs)
    · exact isMoves_refl s
  case underrunCheck =>
    split
    · next it e _ _ =>
      refine isMoves_settle ((dropItem_moves it (begin s)).trans ?_)
      unfold fireCheck
      split
      · exact .refl
      · split
        · exact checkSide_moves ..
        · exact .refl
    · exact isMoves_refl s
  case gapWait =>
    split
    · exact isMoves_refl s
    · next it _ => exact isMoves_settle ((dropItem_moves it (begin s)).tail (.gap _))
  case idleWait =>
    split
    · exact isMoves_refl s
    · split
      · next it _ hm => exact isMoves_settle ((dropItem_moves it (begin s)).trans (fallIdle_moves _ hm))
      · exact isMoves_refl s

end Sys2Proof.Machine
end

section
/-! The invariants (O4 to O9): the end of an event is a chain of moves with at most one pick, and so is a step; each
condition is then kept move by move. -/

namespace Sys2Proof.Machine

variable {strict : Prop}

/-! ### The end of an event, and a step -/

/-- A pick adds one entry, with the next launch number, to a path table with room (R57, R61). -/
def Vitals.picks (c d : Vitals) : Prop :=
  ∃ (e : PathEntry) (items : List Item) (entries : List HistEntry),
    d =
      { c with
        path := c.path ++ [e], items := items, staged := some c.counter, counter := c.counter + 1
        entries := entries } ∧
    e.launch = c.counter ∧ c.state = .running ∧ c.path.length < (c.inForce.getD default).pathDepth ∧
    (c.entries.length ≤ 32 → entries.length ≤ 32)

/-- The state with the head of the schedule taken into a new staged entry, before its items are armed (R61). -/
def State.entered (h : LogicalSheet) (s : State) : State :=
  { s with
    fetch := { s.fetch with schedule := s.fetch.schedule.tail }
    track := { s.track with path := s.track.path ++ [newEntry s.plan.counter s.time.pos h] }
    plan := { s.plan with counter := s.plan.counter + 1, staged := some s.plan.counter } }

/-- The state with the two LE expectations of a pick armed (R61). -/
def State.feeding (h : LogicalSheet) (s : State) : State :=
  armLE s.plan.counter .reg (plus s.time.pos (s.cfg.trays[h.tray]).p)
    (armLE s.plan.counter (feedStation h.tray) (plus s.time.pos (s.cfg.trays[h.tray]).f) (s.entered h))

theorem pick_eq (h : LogicalSheet) (s : State) :
    pick h s =
      appendHist (.pick h.tray) none none (some h.seq) (some s.plan.counter) s.time.pos
        (emit (.pick h.tray) (commitLoop s.plan.counter h (s.feeding h))) := rfl

theorem pick_picks (h : LogicalSheet) (s : State) (hp : s.pickCase h = true) : s.vitals.picks (pick h s).vitals := by
  simp only [State.pickCase, State.eligible, Bool.and_eq_true, beq_iff_eq, decide_eq_true_eq] at hp
  obtain ⟨⟨hrun, _, hroom⟩, _⟩ := hp
  obtain ⟨entries, he, hlen⟩ := appendHist_remembers (.pick h.tray) none none (some h.seq) (some s.plan.counter)
    s.time.pos (emit (.pick h.tray) (commitLoop s.plan.counter h (s.feeding h)))
  rw [← pick_eq] at he
  rw [emit_vitals, commitLoop_vitals] at he hlen
  exact ⟨newEntry s.plan.counter s.time.pos h, (s.feeding h).expect.items, entries, he, rfl, hrun, hroom, hlen⟩

/-- A chain of moves with at most one pick in it. -/
def Vitals.reaches (strict : Prop) (c d : Vitals) : Prop :=
  ∃ u v, Moves strict c u ∧ (v = u ∨ u.picks v) ∧ Moves strict v d

theorem reaches_of_moves {c d : Vitals} (h : Moves strict c d) : c.reaches strict d := ⟨d, d, h, .inl rfl, .refl⟩

theorem settle_reaches (s : State) : s.vitals.reaches strict (settle s).vitals := by
  let u := tryRelease (startStep (drainStep s))
  have hu : Moves strict s.vitals u.vitals :=
    ((drainStep_moves s).trans (startStep_moves _)).trans (tryRelease_moves _)
  have hend (v : State) : Moves strict v.vitals (moveP (silenceStep (idleStep v))).vitals := by
    rw [moveP_vitals, silenceStep_vitals]
    exact idleStep_moves v
  change s.vitals.reaches strict (moveP (silenceStep (idleStep (tryStage u)))).vitals
  rcases tryStage_cases u with ⟨h, _, _, hp, he⟩ | ⟨l, e, hmay, _, hent, _, he⟩ | he <;> rw [he]
  · exact ⟨u.vitals, (pick h u).vitals, hu, .inr (pick_picks h u hp), hend _⟩
  · have hm : u.moving = true := by
      simp only [State.mayLaunch, Bool.and_eq_true] at hmay
      exact hmay.2
    exact reaches_of_moves ((hu.trans (refeed_moves e u (mem_of_entry? hent) (ne_stopped_of_moving hm))).trans (hend _))
  · exact reaches_of_moves (hu.trans (hend _))

theorem exec_reaches {c : Instr} {s t : State} (h : exec c s = .next t) (hr : isReset c = false)
    (hs : strict → s.run.state = .stopped → s.expect.items = []) : s.vitals.reaches strict t.vitals := by
  obtain ⟨d, hd, rfl | rfl⟩ := exec_isMoves h hr hs
  · exact reaches_of_moves hd
  · obtain ⟨u, v, hu, hv, ht⟩ := settle_reaches (strict := strict) d
    exact ⟨u, v, hd.trans hu, hv, ht⟩

theorem Moves.keeps {I : Vitals → Prop} (hmove : ∀ c d, Move strict c d → I c → I d) {c d : Vitals}
    (h : Moves strict c d) (hc : I c) : I d := by
  induction h with
  | refl => exact hc
  | tail _ hm ih => exact hmove _ _ hm ih

/-- What a power-on reset leaves of the vital parts: only the levels are the outside's (R153). -/
theorem afterPowerOn_vitals (base : BitVec 4) (s : State) :
    (afterPowerOn base s).vitals =
      { State.reset.vitals with cover := s.pins.cover, tready := s.pins.tready } := rfl

/-- A system reset also keeps a frozen history (R174). -/
theorem afterSystem_vitals (base : BitVec 4) (s : State) :
    (afterSystem base s).vitals =
      { State.reset.vitals with
        cover := s.pins.cover, tready := s.pins.tready, entries := s.history.overReset.entries } := rfl

theorem overReset_entries_length {h : HistoryUnit} (hl : h.entries.length ≤ 32) : h.overReset.entries.length ≤ 32 := by
  unfold HistoryUnit.overReset
  split
  · exact hl
  · exact Nat.zero_le _

/-- A condition on the vital parts that holds over every move, every pick and the resets holds over every step. -/
theorem step_keeps {I : Vitals → Prop} (hmove : ∀ c d, Move strict c d → I c → I d)
    (hpick : ∀ c d, c.picks d → I c → I d)
    (hreset : ∀ c entries, I c → (c.entries.length ≤ 32 → entries.length ≤ 32) →
      I { State.reset.vitals with cover := c.cover, tready := c.tready, entries := entries })
    (hs : strict → ∀ c, I c → c.state = .stopped → c.items = [])
    {s t : State} (hi : I s.vitals) (h : step s = .next t) : I t.vitals := by
  unfold step at h
  split at h
  · obtain rfl := Host.Outcome.next.inj h
    exact hi
  · next c cs _ =>
    cases hr : isReset c
    · obtain ⟨u, v, hu, hv, ht⟩ := exec_reaches h hr fun hb => hs hb s.vitals hi
      refine ht.keeps hmove ?_
      rcases hv with rfl | hp
      · exact hu.keeps hmove hi
      · exact hpick _ _ hp (hu.keeps hmove hi)
    · cases c
      case powerOnReset base =>
        obtain rfl := Host.Outcome.next.inj h
        exact hreset s.vitals [] hi fun _ => Nat.zero_le _
      case systemReset base =>
        obtain rfl := Host.Outcome.next.inj h
        exact hreset s.vitals _ hi overReset_entries_length
      all_goals simp [isReset] at hr

/-! ### The transport (R41 to R43) -/

def Vitals.transportSafe (c : Vitals) : Prop :=
  (c.state = .starting ∨ c.state = .running ∨ c.state = .draining → c.cover = true) ∧
    (c.state = .running ∨ c.state = .draining → c.tready = true)

theorem transportSafe_iff (s : State) : s.transportSafe ↔ s.vitals.transportSafe := by
  simp [State.transportSafe, Vitals.transportSafe, State.mrun, State.moving, State.vitals, or_assoc]

theorem Move.transportSafe {c d : Vitals} (h : Move False c d) (hc : c.transportSafe) : d.transportSafe := by
  obtain ⟨hcover, htready⟩ := hc
  cases h
  case grant s => simpa [Vitals.transportSafe, State.vitals] using And.intro hcover htready
  case tready b hb =>
    refine ⟨hcover, fun hm => ?_⟩
    cases b
    · obtain ⟨h1, h2⟩ := hb rfl; exact absurd hm (by simp [h1, h2])
    · rfl
  case cover b hb =>
    refine ⟨fun hm => ?_, htready⟩
    cases b
    · obtain ⟨h1, h2, h3⟩ := hb rfl; exact absurd hm (by simp [h1, h2, h3])
    · rfl
  case start hs hc => exact ⟨fun _ => hc, by simp⟩
  case speed r hr hs ht => exact ⟨fun _ => hcover (.inl hs), fun _ => ht⟩
  case shift r hr hs => exact ⟨fun _ => hcover (.inr hs), fun _ => htready hs⟩
  case stop | clear | accept => exact ⟨by simp, by simp⟩
  all_goals exact ⟨hcover, htready⟩

/-! ### Stops (R37, R70, R105, R111, R118) -/

def Vitals.stopWhole (c : Vitals) : Prop :=
  (c.lock = true ↔ c.state = .stopped) ∧
    (c.state = .stopped →
      c.items = [] ∧ c.staged = none ∧ c.gapMet = true ∧ c.lastRelease = none ∧ c.current = none ∧
        ∀ e ∈ c.path, e.sheet = none)

theorem Move.stopWhole {c d : Vitals} (h : Move True c d) (hc : c.stopWhole) : d.stopWhole := by
  obtain ⟨hlock, hwhole⟩ := hc
  /- A move outside STOPPED that leaves the run state and the lock says nothing about STOPPED. -/
  have outside (hs : c.state ≠ .stopped) {d : Vitals} (h1 : d.state = c.state) (h2 : d.lock = c.lock) : d.stopWhole :=
    ⟨by rw [h1, h2]; exact hlock, fun hd => absurd (h1.symm.trans hd) hs⟩
  have unlocked {d : Vitals} (h1 : d.state ≠ .stopped) (h2 : d.lock = false) : d.stopWhole :=
    ⟨by simp [h1, h2], fun hd => absurd hd h1⟩
  have lock_false (hs : c.state ≠ .stopped) : c.lock = false := by
    cases hl : c.lock
    · rfl
    · exact absurd (hlock.mp hl) hs
  cases h
  case stop path store entries hs hl hd hst he =>
    exact ⟨by simp, fun _ => ⟨rfl, rfl, rfl, rfl, rfl, hd (lock_false hs.2)⟩⟩
  case arm l hb => exact outside (hb trivial) rfl rfl
  case drop l hl =>
    refine ⟨hlock, fun hs => ?_⟩
    obtain ⟨hi, hrest⟩ := hwhole hs
    exact ⟨List.eq_nil_of_sublist_nil (hi ▸ hl), hrest⟩
  case plan hb => exact outside (hb trivial) rfl rfl
  case gap =>
    refine ⟨hlock, fun hs => ?_⟩
    obtain ⟨hi, hst, _, hrest⟩ := hwhole hs
    exact ⟨hi, hst, rfl, hrest⟩
  case image side hb =>
    have hs : c.state ≠ .stopped := by
      rcases hb with hb | hb
      · intro hs
        obtain ⟨_, _, _, _, hcur, _⟩ := hwhole hs
        exact hb hcur
      · exact hb trivial
    exact outside hs rfl rfl
  case blank =>
    refine ⟨hlock, fun hs => ?_⟩
    obtain ⟨hi, hst, hg, hr, _, hp⟩ := hwhole hs
    exact ⟨hi, hst, hg, hr, rfl, hp⟩
  case path p hl hsh =>
    refine ⟨hlock, fun hs => ?_⟩
    obtain ⟨hi, hst, hg, hr, hcur, hp⟩ := hwhole hs
    refine ⟨hi, hst, hg, hr, hcur, fun x hx => ?_⟩
    rcases hsh x hx with h | ⟨y, hy, h⟩
    · exact h
    · rw [← h]; exact hp y hy
  case grant s => exact (by simpa [Vitals.stopWhole, State.vitals] using And.intro hlock hwhole)
  case start hs _ => exact unlocked (by simp) (lock_false (by simp [hs]))
  case speed r hr hs _ => exact unlocked (by rcases hr with rfl | rfl <;> simp) (lock_false (by simp [hs]))
  case shift r hr hs =>
    exact unlocked (by rcases hr with rfl | rfl | rfl <;> simp) (lock_false (by rcases hs with h | h <;> simp [h]))
  case clear => exact unlocked (by simp) rfl
  case accept setup hs =>
    exact unlocked (by simp) (lock_false (by rcases hs with h | ⟨h, _⟩ <;> simp [h]))
  all_goals exact ⟨hlock, hwhole⟩

theorem picks_stopWhole {c d : Vitals} (h : c.picks d) (hc : c.stopWhole) : d.stopWhole := by
  obtain ⟨e, items, entries, rfl, _, hrun, _, _⟩ := h
  obtain ⟨hlock, _⟩ := hc
  exact ⟨hlock, fun hs => absurd (hrun.symm.trans hs) (by simp)⟩

/-! ### The setup in force and the path table (R38, R57, R74) -/

def Vitals.pathFits (c : Vitals) : Prop :=
  (c.state = .unset ↔ c.inForce = none) ∧ (c.state = .unset → c.path = []) ∧
    c.path.length ≤ (c.inForce.getD default).pathDepth

theorem Move.pathFits {c d : Vitals} (h : Move False c d) (hc : c.pathFits) : d.pathFits := by
  obtain ⟨hset, hnil, hdepth⟩ := hc
  /- A change of the run state outside UNSET leaves the setup in force. -/
  have changes {r : RunState} {p : List PathEntry} {d : Vitals} (hs : c.state ≠ .unset) (hr : r ≠ .unset)
      (hp : p.length ≤ c.path.length) (h1 : d.state = r) (h2 : d.inForce = c.inForce) (h3 : d.path = p) :
      d.pathFits :=
    ⟨by rw [h1, h2, ← hset]; exact iff_of_false hr hs, fun hd => absurd (h1.symm.trans hd) hr,
      by rw [h2, h3]; exact hp.trans hdepth⟩
  cases h
  case stop path store entries hs hl hd hst he =>
    have hlen : path.length = c.path.length := by simpa using congrArg List.length hl
    exact changes hs.1 (by simp) hlen.le rfl rfl rfl
  case path p hl hsh =>
    have hlen : p.length ≤ c.path.length := by simpa using hl.length_le
    exact ⟨hset, fun hs => List.length_eq_zero_iff.mp (by have := hnil hs; simp_all), hlen.trans hdepth⟩
  case grant s => simpa [Vitals.pathFits, State.vitals] using And.intro hset (And.intro hnil hdepth)
  case start hs _ => exact changes (by simp [hs]) (by simp) le_rfl rfl rfl rfl
  case speed r hr hs _ => exact changes (by simp [hs]) (by rcases hr with rfl | rfl <;> simp) le_rfl rfl rfl rfl
  case shift r hr hs =>
    exact changes (by rcases hs with h | h <;> simp [h]) (by rcases hr with rfl | rfl | rfl <;> simp) le_rfl rfl rfl rfl
  case clear hs => exact changes (by simp [hs]) (by simp) (Nat.zero_le _) rfl rfl rfl
  case accept setup hs =>
    have hp : c.path = [] := hs.elim hnil (·.2)
    exact ⟨by simp, fun _ => hp, by simp [hp]⟩
  all_goals exact ⟨hset, hnil, hdepth⟩

theorem picks_pathFits {c d : Vitals} (h : c.picks d) (hc : c.pathFits) : d.pathFits := by
  obtain ⟨e, items, entries, rfl, _, hrun, hroom, _⟩ := h
  obtain ⟨hset, _, _⟩ := hc
  exact ⟨hset, fun hs => absurd (hrun.symm.trans hs) (by simp), by simpa using hroom⟩

/-! ### The memory port (R131, R141, R142) -/

def Vitals.portFits (c : Vitals) : Prop :=
  c.fwd.length ≤ 8 ∧ c.own.length ≤ 16 ∧ c.wait ≤ 4 ∧ (c.own = [] → c.wait = 0)

/-- A grant takes the head of a queue, or nothing (R142). -/
theorem grant_lengths (s : State) :
    (grant s).pass.fwd.length ≤ s.pass.fwd.length ∧ (grant s).pass.own.length ≤ s.pass.own.length := by
  rcases hf : s.pass.fwd with _ | ⟨f, fs⟩ <;> rcases ho : s.pass.own with _ | ⟨a, as⟩
  · rw [grant_of_both_empty hf ho, hf, ho]; simp
  · simp [grant_of_forward_empty hf ho, hf]
  · simp [grant_of_own_empty hf ho, ho]
  · rcases Nat.lt_or_ge s.pass.wait 4 with hw | hw
    · simp [grant_of_wait_lt hf ho hw, ho]
    · simp [grant_of_le_wait hf ho hw, hf]

theorem Move.portFits {c d : Vitals} (h : Move False c d) (hc : c.portFits) : d.portFits := by
  obtain ⟨hfwd, hown, hwait, hzero⟩ := hc
  cases h
  case forward f h => exact ⟨by simpa using h, hown, hwait, hzero⟩
  case own a h => exact ⟨hfwd, by simpa using h, hwait, by simp⟩
  case grant s =>
    obtain ⟨hf, ho⟩ := grant_lengths s
    exact ⟨hf.trans hfwd, ho.trans hown, grant_wait_bounds hwait hzero⟩
  all_goals exact ⟨hfwd, hown, hwait, hzero⟩

/-! ### Counts and bounded collections (R41, R53, R89, R171) -/

def Vitals.countsFit (c : Vitals) : Prop :=
  c.entries.length ≤ 32 ∧ c.store.length ≤ 32 ∧ c.acc < 16 ∧ c.estTicks ≤ 65535 ∧
    (c.timer.isSome = true ↔ c.state = .starting)

theorem Move.countsFit {c d : Vitals} (h : Move False c d) (hc : c.countsFit) : d.countsFit := by
  obtain ⟨hent, hstore, hacc, hest, htimer⟩ := hc
  /- The timer stands in every state but STARTING. -/
  have idle (hs : c.state ≠ .starting) {r : RunState} (hr : r ≠ .starting) :
      c.timer.isSome = true ↔ r = .starting := iff_of_false (mt htimer.mp hs) hr
  cases h
  case history l h => exact ⟨h hent, hstore, hacc, hest, htimer⟩
  case stop path store entries hs hl hd hst he =>
    exact ⟨he hent, hst.trans hstore, hacc, hest, by simp⟩
  case store l h => exact ⟨hent, h hstore, hacc, hest, htimer⟩
  case grant s => simpa [Vitals.countsFit, State.vitals] using And.intro hent (And.intro hstore ⟨hacc, hest, htimer⟩)
  case time a n ha hn => exact ⟨hent, hstore, ha, hn, htimer⟩
  case tick => exact ⟨hent, hstore, hacc, hest, by simpa using htimer⟩
  case start => exact ⟨hent, hstore, hacc, hest, by simp⟩
  case speed r hr _ _ => exact ⟨hent, hstore, hacc, hest, by rcases hr with rfl | rfl <;> simp⟩
  case shift r hr hs =>
    exact ⟨hent, hstore, hacc, hest,
      idle (by rcases hs with h | h <;> simp [h]) (by rcases hr with rfl | rfl | rfl <;> simp)⟩
  case clear hs => exact ⟨hent, hstore, Nat.zero_lt_succ 15, Nat.zero_le _, idle (by simp [hs]) (by simp)⟩
  case accept setup hs =>
    exact ⟨hent, hstore, hacc, hest, idle (by rcases hs with h | ⟨h, _⟩ <;> simp [h]) (by simp)⟩
  all_goals exact ⟨hent, hstore, hacc, hest, htimer⟩

theorem picks_countsFit {c d : Vitals} (h : c.picks d) (hc : c.countsFit) : d.countsFit := by
  obtain ⟨e, items, entries, rfl, _, _, _, he⟩ := h
  obtain ⟨hent, hrest⟩ := hc
  exact ⟨he hent, hrest⟩

/-! ### Launch numbers (R55, R74) -/

/-- No move adds an entry or gives a launch number. -/
theorem Move.launches {c d : Vitals} (h : Move False c d) :
    (d.path.map PathEntry.launch).Sublist (c.path.map PathEntry.launch) ∧ d.counter = c.counter := by
  cases h
  case stop path store entries hs hl hd hst he => exact ⟨hl ▸ .refl _, rfl⟩
  case path p hl hsh => exact ⟨hl, rfl⟩
  case clear => exact ⟨List.nil_sublist _, rfl⟩
  case grant s => simp [State.vitals]
  all_goals exact ⟨.refl _, rfl⟩

theorem Moves.launches {c d : Vitals} (h : Moves False c d) :
    (d.path.map PathEntry.launch).Sublist (c.path.map PathEntry.launch) ∧ d.counter = c.counter := by
  induction h with
  | refl => exact ⟨.refl _, rfl⟩
  | tail _ hm ih =>
    obtain ⟨hl, hn⟩ := hm.launches
    exact ⟨hl.trans ih.1, hn.trans ih.2⟩

/-- One pick keeps distinct launch numbers distinct when it gives a number that is not in the path (R74). -/
theorem nodup_launch_of_reaches {c d : Vitals} (h : c.reaches False d) (hd : (c.path.map PathEntry.launch).Nodup)
    (hn : ∀ e ∈ c.path, e.launch ≠ c.counter) : (d.path.map PathEntry.launch).Nodup := by
  obtain ⟨u, v, hu, hv, ht⟩ := h
  obtain ⟨hul, hun⟩ := hu.launches
  refine ht.launches.1.nodup ?_
  rcases hv with rfl | ⟨e, items, entries, rfl, he, _⟩
  · exact hul.nodup hd
  · have hnew : c.counter ∉ c.path.map PathEntry.launch := by simpa using hn
    simp only [List.map_append, List.map_cons, List.map_nil, he, hun]
    exact List.nodup_append.mpr ⟨hul.nodup hd, List.nodup_singleton _, fun a ha b hb => by
      rintro rfl
      exact hnew (List.mem_singleton.mp hb ▸ hul.subset ha)⟩

end Sys2Proof.Machine

open Sys2Proof Sys2Proof.Machine

/-- Settles O4: MRUN and TREADY over every move, since the run state moves on only with its line high. -/
theorem transportStaysSafe : Obligations.TransportStaysSafe := by
  intro s t hs h
  rw [transportSafe_iff] at hs ⊢
  refine step_keeps (strict := False) (I := Vitals.transportSafe) (fun _ _ hm hc => hm.transportSafe hc) ?_ ?_
    False.elim hs h
  · rintro c d ⟨e, items, entries, rfl, _⟩ hc
    exact hc
  · rintro c entries - -
    exact ⟨by simp [State.vitals, State.reset], by simp [State.vitals, State.reset]⟩

/-- Settles O5: a stop leaves the path whole, and in STOPPED no move arms, images or releases anything. -/
theorem stopStaysWhole : Obligations.StopStaysWhole := by
  intro s t hs h
  refine step_keeps (strict := True) (I := Vitals.stopWhole) (fun _ _ hm hc => hm.stopWhole hc)
    (fun _ _ => picks_stopWhole) ?_ (fun _ c hc hst => (hc.2 hst).1) (s := s) hs h
  rintro c entries - -
  exact ⟨by simp [State.vitals, State.reset], by simp [State.vitals, State.reset]⟩

/-- Settles O6: only a pick adds an entry, with room in the path table, and UNSET is left by an acceptance alone. -/
theorem pathStaysWithinDepth : Obligations.PathStaysWithinDepth := by
  intro s t hs h
  refine step_keeps (strict := False) (I := Vitals.pathFits) (fun _ _ hm hc => hm.pathFits hc)
    (fun _ _ => picks_pathFits) ?_ False.elim (s := s) hs h
  rintro c entries - -
  exact ⟨by simp [State.vitals, State.reset], fun _ => rfl, Nat.zero_le _⟩

/-- Settles O7: an access joins a queue with room alone, and the wait count by the rows of the arbiter. -/
theorem portStaysWithinRoom : Obligations.PortStaysWithinRoom := by
  intro s t hs h
  refine step_keeps (strict := False) (I := Vitals.portFits) (fun _ _ hm hc => hm.portFits hc) ?_ ?_
    False.elim (s := s) hs h
  · rintro c d ⟨e, items, entries, rfl, _⟩ hc
    exact hc
  · rintro c entries - -
    exact ⟨Nat.zero_le _, Nat.zero_le _, Nat.zero_le _, fun _ => rfl⟩

/-- Settles O8: each bound over the moves that touch it. -/
theorem countersStayInRange : Obligations.CountersStayInRange := by
  intro s t hs h
  refine step_keeps (strict := False) (I := Vitals.countsFit) (fun _ _ hm hc => hm.countsFit hc)
    (fun _ _ => picks_countsFit) ?_ False.elim (s := s) hs h
  rintro c entries ⟨hent, _⟩ he
  exact ⟨he hent, Nat.zero_le _, by simp [State.vitals, State.reset], Nat.zero_le _,
    by simp [State.vitals, State.reset]⟩

/-- Settles O9: a step gives at most one launch number, the next one, and a reset leaves no entry. -/
theorem launchNumbersStayDistinct : Obligations.LaunchNumbersStayDistinct := by
  intro s t hd hn h
  unfold step at h
  split at h
  · obtain rfl := Host.Outcome.next.inj h
    exact hd
  · next c cs _ =>
    cases hr : isReset c
    · exact nodup_launch_of_reaches (exec_reaches (strict := False) h hr False.elim) hd hn
    · cases c
      case powerOnReset | systemReset =>
        obtain rfl := Host.Outcome.next.inj h
        exact List.nodup_nil
      all_goals simp [isReset] at hr

end

section
/-! Rules of the whole machine (O1, O2, O3, O10, O11): the parts that almost every command leaves alone, and the few
commands that change one of them. -/

namespace Sys2Proof.Machine

/-! ### The parts that almost every command leaves alone -/

/-- The parts of the state that almost every command leaves alone. -/
structure Still where
  pending : List Instr
  base : BitVec 4
  inForce : Option Setup
  revision : Byte
  divsel : Route
  port : SidePort
  visible : Nat
  tail : Nat
  memError : Bool

def State.still (s : State) : Still where
  pending := s.pending
  base := s.setup.base
  inForce := s.setup.inForce
  revision := s.setup.revision
  divsel := s.track.divsel
  port := s.image.port
  visible := s.report.visible
  tail := s.report.tail
  memError := s.pass.memError

/-- The commands that change one of these parts. -/
def changesStill : Instr → Bool
  | .div _ | .top _ | .setupDecision | .headWordWriteComplete | .orderPost | .commitWrite | .tailWrite
  | .forwardedWriteComplete _ | .ownAccessError | .systemReset _ | .powerOnReset _ => true
  | _ => false

/-- A control order leaves what the work of its owning block leaves (R18). -/
theorem controlOrder_still (wf : Bool) (work : State → State × ControlResult) (slot : List Byte) (s : State)
    (hw : ∀ t, (work t).1.still = t.still) : (controlOrder wf work slot s).still = s.still :=
  controlOrder_keeps State.still wf work slot s (by simp [State.still]) (by simp [State.still]) (by simp [State.still]) hw

theorem onOrder_still (k : Nat) (slot : List Byte) (body : State → State) (s : State)
    (hb : ∀ t, (body t).still = t.still) : (onOrder k slot body s).still = s.still :=
  onOrder_keeps State.still k slot body s (by simp [State.still]) (by simp [State.still]) hb

theorem holdWork_still (s : State) : (holdWork s).1.still = s.still := rfl

theorem resumeWork_still (s : State) : (resumeWork s).1.still = s.still := by
  simp only [resumeWork]
  split <;> simp [State.still]

theorem standbyWork_still (s : State) : (standbyWork s).1.still = s.still := by
  simp only [standbyWork]
  split <;> simp [State.still]

theorem clearedWork_still (s : State) : (clearedWork s).1.still = s.still := by
  simp only [clearedWork]
  (repeat' split) <;> simp [State.still]

theorem cancelWork_still (p : PieceId) (s : State) : (cancelWork p s).1.still = s.still := by
  simp only [cancelWork]
  split <;> simp [State.still]

theorem watchWork_still (slot : List Byte) (s : State) : (watchWork slot s).1.still = s.still := by
  simp only [watchWork]
  (repeat' split) <;> simp [State.still]

theorem dumpWork_still (slot : List Byte) (s : State) : (dumpWork slot s).1.still = s.still := by
  simp only [dumpWork]
  (repeat' split) <;> simp [State.still]

theorem tallyWork_still (serial : Serial) (s : State) : (tallyWork serial s).1.still = s.still := by
  simp only [tallyWork]
  (repeat' split) <;> simp [State.still]

/-- An order does what its handling does; any other command does not occur, or does its named operations. -/
theorem exec_still {c : Instr} {s t : State} (h : exec c s = .next t) (hc : changesStill c = false) :
    t.still = s.still := by
  cases c
  case div | top | setupDecision | headWordWriteComplete | orderPost | commitWrite | tailWrite
    | forwardedWriteComplete | ownAccessError | systemReset | powerOnReset => cases hc
  all_goals
    clear hc
    injection h with h
    subst h
  case sheet slot => exact onOrder_still _ _ _ _ (by simp [State.still])
  case hold slot => exact onOrder_still _ _ _ _ fun t => controlOrder_still _ _ _ t holdWork_still
  case resume slot => exact onOrder_still _ _ _ _ fun t => controlOrder_still _ _ _ t resumeWork_still
  case standby slot => exact onOrder_still _ _ _ _ fun t => controlOrder_still _ _ _ t standbyWork_still
  case cleared slot => exact onOrder_still _ _ _ _ fun t => controlOrder_still _ _ _ t clearedWork_still
  case cancel slot => exact onOrder_still _ _ _ _ fun t => controlOrder_still _ _ _ t (cancelWork_still _)
  case watch slot => exact onOrder_still _ _ _ _ fun t => controlOrder_still _ _ _ t (watchWork_still slot)
  case dump slot => exact onOrder_still _ _ _ _ fun t => controlOrder_still _ _ _ t (dumpWork_still slot)
  case tally slot => exact onOrder_still _ _ _ _ fun t => controlOrder_still _ _ _ t (tallyWork_still _)
  all_goals (repeat' split) <;> simp [State.still]

/-! ### The commands that change one of them -/

theorem exec_div_still {l : Launch} {s t : State} (h : exec (.div l) s = .next t) :
    t.still = { s.still with divsel := t.track.divsel } := by
  injection h with h
  subst h
  split <;> simp [State.still]

theorem exec_top_still {l : Launch} {s t : State} (h : exec (.top l) s = .next t) :
    t.still = { s.still with port := t.image.port } := by
  injection h with h
  subst h
  split <;> simp [State.still]

theorem exec_setupDecision_still {s t : State} (h : exec .setupDecision s = .next t) :
    t.still =
      { s.still with
        inForce := t.setup.inForce, revision := t.setup.revision, visible := t.report.visible
        tail := t.report.tail } := by
  injection h with h
  subst h
  (repeat' split) <;> simp [State.still]

theorem exec_headWordWriteComplete_still {s t : State} (h : exec .headWordWriteComplete s = .next t) :
    t.still = { s.still with visible := t.report.visible } := by
  injection h with h
  subst h
  split <;> simp [State.still]

/-- A completed forwarded write may give a new tail view (R161). -/
theorem exec_write_still {c : Instr} {s t : State} (h : exec c s = .next t)
    (hc : c = .orderPost ∨ c = .commitWrite ∨ c = .tailWrite ∨ ∃ ok, c = .forwardedWriteComplete ok) :
    t.still = { s.still with tail := t.report.tail } := by
  obtain rfl | rfl | rfl | ⟨ok, rfl⟩ := hc <;>
    (injection h with h; subst h; (repeat' split) <;> simp [State.still])

/-- A failed own access sets the memory-error flag, and leaves the rest of these parts (R143). -/
theorem exec_ownAccessError_still {s t : State} (h : exec .ownAccessError s = .next t) :
    t = s ∨ t.still = { s.still with memError := true } := by
  injection h with h
  subst h
  split
  · exact .inl rfl
  · next a _ =>
    refine .inr ?_
    rcases ownError_cases a.kind (freePort (begin s)) with ⟨_, he⟩ | ⟨_, he⟩ <;> rw [he] <;> simp [State.still]

theorem exec_reset_pending {c : Instr} {s t : State} (h : exec c s = .next t) (hr : isReset c = true) :
    t.pending = s.pending := by
  cases c
  case systemReset | powerOnReset =>
    injection h with h
    subst h
    rfl
  all_goals simp [isReset] at hr

/-- The ways in which a command can change these parts. -/
theorem exec_still_cases {c : Instr} {s t : State} (h : exec c s = .next t) :
    isReset c = true ∨ t.still = s.still ∨
      ((∃ l, c = .div l) ∧ t.still = { s.still with divsel := t.track.divsel }) ∨
      ((∃ l, c = .top l) ∧ t.still = { s.still with port := t.image.port }) ∨
      (c = .setupDecision ∧
        t.still =
          { s.still with
            inForce := t.setup.inForce, revision := t.setup.revision, visible := t.report.visible
            tail := t.report.tail }) ∨
      (c = .headWordWriteComplete ∧ t.still = { s.still with visible := t.report.visible }) ∨
      ((c = .orderPost ∨ c = .commitWrite ∨ c = .tailWrite ∨ ∃ ok, c = .forwardedWriteComplete ok) ∧
        t.still = { s.still with tail := t.report.tail }) ∨
      (c = .ownAccessError ∧ t.still = { s.still with memError := true }) := by
  cases hc : changesStill c
  · exact .inr (.inl (exec_still h hc))
  · cases c
    case systemReset | powerOnReset => exact .inl rfl
    case div l => exact .inr (.inr (.inl ⟨⟨l, rfl⟩, exec_div_still h⟩))
    case top l => exact .inr (.inr (.inr (.inl ⟨⟨l, rfl⟩, exec_top_still h⟩)))
    case setupDecision => exact .inr (.inr (.inr (.inr (.inl ⟨rfl, exec_setupDecision_still h⟩))))
    case headWordWriteComplete => exact .inr (.inr (.inr (.inr (.inr (.inl ⟨rfl, exec_headWordWriteComplete_still h⟩)))))
    case orderPost | commitWrite | tailWrite | forwardedWriteComplete =>
      exact .inr (.inr (.inr (.inr (.inr (.inr (.inl ⟨by simp, exec_write_still h (by simp)⟩))))))
    case ownAccessError =>
      rcases exec_ownAccessError_still h with rfl | h
      · exact .inr (.inl rfl)
      · exact .inr (.inr (.inr (.inr (.inr (.inr (.inr ⟨rfl, h⟩))))))
    all_goals cases hc

theorem exec_next (c : Instr) (s : State) : ∃ t, exec c s = .next t := by cases c <;> exact ⟨_, rfl⟩

theorem exec_pending {c : Instr} {s t : State} (h : exec c s = .next t) : t.pending = s.pending := by
  rcases exec_still_cases h with hr | h | ⟨-, h⟩ | ⟨-, h⟩ | ⟨-, h⟩ | ⟨-, h⟩ | ⟨-, h⟩ | ⟨-, h⟩
  · exact exec_reset_pending h hr
  all_goals exact congrArg Still.pending h

theorem attn_eq_of_still {s t : State} (hv : t.report.visible = s.report.visible) (ht : t.report.tail = s.report.tail)
    (hm : t.pass.memError = s.pass.memError) : t.attn = s.attn := by simp [State.attn, hv, ht, hm]

/-- No command but a reset clears the memory-error flag (R143, R144). -/
theorem exec_memError {c : Instr} {s t : State} (h : exec c s = .next t) (hr : isReset c = false)
    (hm : s.pass.memError = true) : t.pass.memError = true := by
  rcases exec_still_cases h with hr' | h | ⟨-, h⟩ | ⟨-, h⟩ | ⟨-, h⟩ | ⟨-, h⟩ | ⟨-, h⟩ | ⟨-, h⟩
  · exact absurd hr (by simp [hr'])
  case inr.inr.inr.inr.inr.inr.inr => exact congrArg Still.memError h
  all_goals exact (congrArg Still.memError h).trans hm

end Sys2Proof.Machine

open Sys2Proof Sys2Proof.Machine

/-- Settles O1, by the two cases of the queue. -/
theorem stepRunsFrontCommand : Obligations.StepRunsFrontCommand :=
  ⟨fun c cs s h => by simp only [step, h], fun s h => by simp only [step, h]⟩

/-- Settles O2: each constructor has its arm, and the queue is among the parts that every command leaves. -/
theorem everyCommandAnswersNext : Obligations.EveryCommandAnswersNext := by
  intro c s
  obtain ⟨t, h⟩ := exec_next c s
  exact ⟨t, h, exec_pending h⟩

/-- Settles O3, field by field. -/
theorem resetMeetsTheConditions : Obligations.ResetMeetsTheConditions := by
  refine ⟨⟨by decide, by decide⟩, ⟨by decide, by decide⟩, ⟨by decide, fun _ => rfl, Nat.zero_le _⟩, ⟨?_, ?_, ?_, ?_⟩,
    ⟨?_, ?_, ?_, ?_, ?_⟩, List.nodup_nil⟩ <;> decide

/-- Settles O10: visible head, tail view and memory-error flag over the commands that change one of them. -/
theorem attnAndMemoryError : Obligations.AttnAndMemoryError := by
  intro c s t h
  refine ⟨fun hne => ?_, fun hr hm => ?_⟩
  · have same (hs : t.still = s.still) : t.attn = s.attn :=
      attn_eq_of_still (congrArg Still.visible hs) (congrArg Still.tail hs) (congrArg Still.memError hs)
    rcases exec_still_cases h with hr | h | ⟨-, h⟩ | ⟨-, h⟩ | ⟨rfl, -⟩ | ⟨rfl, -⟩ | ⟨hw, -⟩ | ⟨rfl, -⟩
    · simp [hr]
    · exact absurd (same h) hne
    · exact absurd
        (attn_eq_of_still (congrArg Still.visible h) (congrArg Still.tail h) (congrArg Still.memError h)) hne
    · exact absurd
        (attn_eq_of_still (congrArg Still.visible h) (congrArg Still.tail h) (congrArg Still.memError h)) hne
    · simp
    · simp
    · tauto
    · simp
  · have hflag := exec_memError h hr hm
    exact ⟨hflag, by simp [State.attn, hflag]⟩

/-- Settles O11: which of the parts each command can change. -/
theorem heldOverEveryOtherCommand : Obligations.HeldOverEveryOtherCommand := by
  intro c s t h hr
  have held {x : Still} (hx : t.still = x) (hb : x.base = s.setup.base)
      (hs : c ≠ .setupDecision → x.inForce = s.setup.inForce ∧ x.revision = s.setup.revision)
      (hd : (∀ l, c ≠ .div l) → x.divsel = s.track.divsel) (hp : (∀ l, c ≠ .top l) → x.port = s.image.port) :
      t.setup.base = s.setup.base ∧
        (c ≠ .setupDecision → t.setup.inForce = s.setup.inForce ∧ t.setup.revision = s.setup.revision) ∧
        ((∀ l, c ≠ .div l) → t.track.divsel = s.track.divsel) ∧ ((∀ l, c ≠ .top l) → t.image.port = s.image.port) := by
    subst hx
    exact ⟨hb, hs, hd, hp⟩
  rcases exec_still_cases h with hr' | h | ⟨⟨l, hc⟩, h⟩ | ⟨⟨l, hc⟩, h⟩ | ⟨hc, h⟩ | ⟨-, h⟩ | ⟨-, h⟩ | ⟨-, h⟩
  · exact absurd hr (by simp [hr'])
  · exact held h rfl (fun _ => ⟨rfl, rfl⟩) (fun _ => rfl) fun _ => rfl
  · exact held h rfl (fun _ => ⟨rfl, rfl⟩) (fun hd => absurd hc (hd l)) fun _ => rfl
  · exact held h rfl (fun _ => ⟨rfl, rfl⟩) (fun _ => rfl) fun ht => absurd hc (ht l)
  · exact held h rfl (fun hs => absurd hc hs) (fun _ => rfl) fun _ => rfl
  all_goals exact held h rfl (fun _ => ⟨rfl, rfl⟩) (fun _ => rfl) fun _ => rfl

end

section
/-! The end of an event (O12, O13): the movement of P and the decisions of run-state control. -/

namespace Sys2Proof.Machine

/-! ### The movement of P -/

/-- The state with P moved on over some of the counts of travel owed. -/
def State.advanced (k : Nat) (s : State) : State :=
  { s with time := { s.time with pos := s.time.pos + BitVec.ofNat 24 k, owed := s.time.owed - k } }

theorem advanced_zero (s : State) : s.advanced 0 = s := by simp [State.advanced]

theorem advanced_advanced (j k : Nat) (s : State) : (s.advanced j).advanced k = s.advanced (k + j) := by
  simp only [State.advanced, Nat.sub_sub, BitVec.ofNat_add, add_assoc, Nat.add_comm j k]
  rw [add_comm (BitVec.ofNat 24 j)]

/-- P stops at the first position at which something is due, or with all counts taken (R21). -/
theorem runOwed_spec (n : Nat) (s : State) :
    ∃ k ≤ n, runOwed n s = s.advanced k ∧ (∀ j < k, (s.advanced j).somethingDue = false) ∧
      (k = n ∨ (runOwed n s).somethingDue = true) := by
  induction n generalizing s with
  | zero => exact ⟨0, le_rfl, (advanced_zero s).symm, nofun, .inl rfl⟩
  | succ n ih =>
    cases hd : s.somethingDue
    · have hstep : runOwed (n + 1) s = runOwed n (s.advanced 1) := by simp [runOwed, hd, State.advanced]
      obtain ⟨k, hk, heq, hpass, hend⟩ := ih (s.advanced 1)
      refine ⟨k + 1, Nat.succ_le_succ hk, by rw [hstep, heq, advanced_advanced], fun j hj => ?_, ?_⟩
      · cases j with
        | zero => rw [advanced_zero]; exact hd
        | succ j => rw [← advanced_advanced]; exact hpass j (Nat.lt_of_succ_lt_succ hj)
      · rw [hstep]; exact hend.imp_left (congrArg Nat.succ)
    · have hstop : runOwed (n + 1) s = s := by simp [runOwed, hd]
      exact ⟨0, Nat.zero_le _, by rw [hstop, advanced_zero], nofun, .inr (by rw [hstop, hd])⟩

/-! ### What the end of an event leaves alone -/

theorem tally_ext {t u : Tally} (h1 : t.nextSerial = u.nextSerial) (h2 : t.delivered = u.delivered)
    (h3 : t.lastSerial = u.lastSerial) (h4 : t.lastPiece = u.lastPiece) (h5 : t.valid = u.valid) : t = u := by
  cases t; cases u; simp_all

theorem settle_sameBeyondDecisions (s : State) : s.sameBeyondDecisions (settle s) := by
  refine ⟨by simp, by simp, ?_, by simp, ?_, by simp, ?_, by simp, ?_, by simp, ?_, by simp⟩
  · apply FetchUnit.ext <;> simp
  · apply TimeUnit.ext <;> simp
  · apply TrackUnit.ext <;> simp
  · apply ReportUnit.ext <;> simp
  · exact tally_ext rfl (by simp) (by simp) (by simp) (by simp)

/-! ### The decisions -/

/-- A position no more than half the range ahead of P is not reached, and P itself is (R22). -/
theorem reached_plus (s : State) (n : Nat) (h : n ≤ 8388608) : s.reached (plus s.time.pos n) = decide (n = 0) := by
  have hn : s.time.pos - (s.time.pos + BitVec.ofNat 24 n) = -BitVec.ofNat 24 n := by ring
  simp only [State.reached, atOrPast, plus, hn]
  rw [decide_eq_decide, BitVec.toNat_neg, BitVec.toNat_ofNat]
  omega

theorem startCondition_iff (s : State) :
    s.startCondition = true ↔ s.fetch.schedule ≠ [] ∧ s.run.standby = false ∧ s.pins.cover = true := by
  simp [State.startCondition, and_assoc]

theorem idleCondition_iff (s : State) :
    s.idleCondition = true ↔
      (s.run.state = .running ∨ s.run.state = .draining) ∧ s.time.estimate = false ∧ s.track.path = [] ∧
        (s.fetch.schedule = [] ∨ s.run.standby = true) := by
  simp [State.idleCondition, moving_iff, and_assoc]

theorem watchCondition_iff (s : State) :
    s.watchCondition = true ↔
      (s.run.state = .running ∨ s.run.state = .draining) ∧ s.pins.tready = true ∧ s.time.estimate = false := by
  simp [State.watchCondition, moving_iff, and_assoc]

theorem idleArmed_iff (s : State) : s.idleArmed = true ↔ ∃ i ∈ s.expect.items, i.kind = .idle := by
  simp [State.idleArmed]

/-- The state in STARTING, its start timer as given (R41). -/
def State.startingWith (n : Option Nat) (s : State) : State :=
  { changeRun .starting none s with run := { (changeRun .starting none s).run with timer := n } }

theorem enterStarting_of_not_ready {s : State} (h : s.pins.tready = false) :
    enterStarting s = s.startingWith (some 0) := by
  simp [enterStarting, State.startingWith, h]

theorem enterStarting_of_ready {s : State} (h : s.pins.tready = true) :
    enterStarting s = changeRun (if s.run.standby then .draining else .running) none (s.startingWith none) := by
  simp [enterStarting, atSpeed, State.startingWith, h]

end Sys2Proof.Machine

open Sys2Proof Sys2Proof.Machine

/-- Settles O12, by induction on the counts owed. -/
theorem positionSkipsNothing : Obligations.PositionSkipsNothing := fun s => runOwed_spec s.time.owed s

/-- Settles O13: the frame of the whole, then each decision by its condition. -/
theorem endOfEventDecisions : Obligations.EndOfEventDecisions := by
  intro s moving drained starts timed idles armed wait expecting watches
  have hstarts : starts ↔ s.run.state = .idle ∧ s.startCondition = true := by rw [startCondition_iff]
  have hidles : idles ↔ s.idleCondition = true := (idleCondition_iff s).symm
  have harmed : armed ↔ s.idleArmed = true := (idleArmed_iff s).symm
  have hwatches : watches ↔ s.watchCondition = true := (watchCondition_iff s).symm
  refine ⟨settle_sameBeyondDecisions s, rfl, fun h => if_pos h, fun h => if_neg h, fun h => if_neg (mt hstarts.mpr h),
    fun h hr => ?_, fun h hr => ?_, fun h => ?_, fun h ha => ?_, fun h ha hl => ?_, fun h ha hl hu => ?_, fun h => ?_,
    fun h => ?_⟩
  · rw [startStep, if_pos (hstarts.mp h), enterStarting_of_not_ready hr]
    rfl
  · have ⟨_, _, hstandby, _⟩ := h
    rw [startStep, if_pos (hstarts.mp h), enterStarting_of_ready hr, hstandby]
    rfl
  · rw [idleStep, if_neg (mt hidles.mpr h)]
    rfl
  · rw [idleStep, if_pos (hidles.mp h), if_pos (harmed.mp ha)]
  · rw [idleStep, if_pos (hidles.mp h), if_neg (mt harmed.mpr ha), reached_plus s _ (by omega), hl]
    rfl
  · rw [idleStep, if_pos (hidles.mp h), if_neg (mt harmed.mpr ha), reached_plus s _ (by omega),
      decide_eq_false (by omega)]
    rfl
  · rw [silenceStep, if_pos (hwatches.mp h)]
  · rw [silenceStep, if_neg (mt hwatches.mpr h)]

end

section
/-! The timebase (O44 to O46): pulses, ticks, and the ticks that declare a loss or expire the start timer. -/

namespace Sys2Proof.Machine

/-! ### Pulses -/

/-- One more count of travel is owed, and the silence count is 0 (R21, R50). -/
def State.pulsed (s : State) : State :=
  { s with out := [], time := { s.time with pulsed := true, silence := 0, owed := s.time.owed + 1 } }

theorem exec_encPulse_of_encoder {s : State} (h : s.time.estimate = false) :
    exec .encPulse s = .next (moveP s.pulsed) := by
  change execEncPulse s = _
  rw [execEncPulse, h]
  rfl

theorem exec_encPulse_of_estimate {s : State} (h : s.time.estimate = true) :
    exec .encPulse s = .next (estimatePulse (begin s)) := by
  change execEncPulse s = _
  rw [execEncPulse, if_pos h]

theorem moveP_of_somethingDue {s : State} (h : s.somethingDue = true) : moveP s = s := by
  rw [moveP]
  cases s.time.owed with
  | zero => rfl
  | succ n => rw [runOwed, if_pos h]

/-- One count is travelled when nothing is due (R21). -/
theorem moveP_of_owed_one {s : State} (ho : s.time.owed = 1) (hd : s.somethingDue = false) :
    moveP s = s.advanced 1 := by
  simp [moveP, ho, runOwed, hd, State.advanced]

/-! ### Ticks -/

theorem exec_tick (s : State) : exec .tick s = .next (settle (tickWork (begin s))) := rfl

theorem exec_encoderLoss_of_declaresLoss {s : State} (h : s.declaresLoss = true) :
    exec .encoderLoss s = exec .tick s := by
  change execEncoderLoss s = execTick s
  rw [execEncoderLoss, if_pos h, execTick]

theorem exec_startTimerExpiry_of_timerExpires {s : State} (h : s.timerExpires = true) :
    exec .startTimerExpiry s = exec .tick s := by
  change execStartTimerExpiry s = execTick s
  rw [execStartTimerExpiry, if_pos h, execTick]

theorem silentTick_iff (s : State) :
    s.silentTick = true ↔
      ((s.run.state = .running ∨ s.run.state = .draining) ∧ s.pins.tready = true ∧ s.time.estimate = false) ∧
        s.time.pulsed = false := by
  simp [State.silentTick, watchCondition_iff]

theorem declaresLoss_iff (s : State) :
    s.declaresLoss = true ↔
      (s.run.state = .running ∨ s.run.state = .draining) ∧ s.pins.tready = true ∧ s.time.estimate = false ∧
        s.time.pulsed = false ∧ s.cfg.lossLimit ≤ s.time.silence + 1 := by
  simp [State.declaresLoss, silentTick_iff, and_assoc]

theorem timerExpires_iff {s : State} {n : Nat} (h : s.run.timer = some n) :
    s.timerExpires = true ↔ s.run.state = .starting ∧ 100 * s.cfg.startLimit ≤ n + 1 := by
  simp [State.timerExpires, h]

theorem timerExpires_eq_false {s : State} (h : s.run.state ≠ .starting) : s.timerExpires = false := by
  simp [State.timerExpires, h]

/-- What a tick counts, with its silence count as given (R41, R50). -/
def State.ticked (silence : Nat) (s : State) : State :=
  { s with
    out := []
    run := { s.run with timer := s.run.timer.map (· + 1) }
    time := { s.time with pulsed := false, silence := silence } }

theorem countTick_of_declaresLoss {s : State} (h : s.declaresLoss = true) : countTick (begin s) = s.ticked 0 := by
  have hb : (begin s).declaresLoss = true := h
  rw [countTick, if_pos hb]
  rfl

theorem countTick_of_silentTick {s : State} (h : s.declaresLoss = false) (hs : s.silentTick = true) :
    countTick (begin s) = s.ticked (s.time.silence + 1) := by
  have hb : (begin s).declaresLoss = false := h
  have hbs : (begin s).silentTick = true := hs
  rw [countTick, hb, hbs]
  rfl

theorem countTick_of_not_silentTick {s : State} (hs : s.silentTick = false) :
    countTick (begin s) = s.ticked s.time.silence := by
  have hb : (begin s).declaresLoss = false := by
    change (s.silentTick && _) = false
    rw [hs]; rfl
  have hbs : (begin s).silentTick = false := hs
  rw [countTick, hb, hbs]
  rfl

/-! ### The branches of a tick -/

theorem tickWork_of_timerExpires {s : State} (h : s.timerExpires = true) :
    tickWork (begin s) = stopAtP .transportStart (countTick (begin s)) := if_pos h

theorem tickWork_of_declaresLoss {s : State} (h : s.declaresLoss = true) :
    tickWork (begin s) = declareLoss (s.ticked 0) := by
  have ht : s.timerExpires = false := by
    refine timerExpires_eq_false fun hs => ?_
    obtain ⟨hm, _⟩ := (declaresLoss_iff s).mp h
    simp [hs] at hm
  have hb : (begin s).timerExpires = false := ht
  have hl : (begin s).declaresLoss = true := h
  rw [tickWork, hb, hl, ← countTick_of_declaresLoss h]
  rfl

theorem tickWork_of_counting {s : State} (ht : s.timerExpires = false) (hl : s.declaresLoss = false) :
    tickWork (begin s) = if s.time.estimate then estimateTick (countTick (begin s)) else countTick (begin s) := by
  have hb : (begin s).timerExpires = false := ht
  have hlb : (begin s).declaresLoss = false := hl
  rw [tickWork, hb, hlb]
  rfl

/-- The list of the widened expectations is a rearrangement of them (R26). -/
theorem foldl_insertItem_perm (xs l : List Item) : (xs.foldl (fun l i => insertItem i l) l).Perm (xs ++ l) := by
  induction xs generalizing l with
  | nil => exact .refl _
  | cons x xs ih => exact (ih _).trans (((insertItem_perm x l).append_left xs).trans List.perm_middle)

theorem widenAll_items_perm (s : State) : (widenAll s).expect.items.Perm (s.expect.items.map Item.widen) :=
  (foldl_insertItem_perm (s.expect.items.map Item.widen) []).trans (.of_eq (List.append_nil _))

theorem declareLoss_of_stop {s : State} (h : s.cfg.lossAction = .stop) : declareLoss s = stopAtP .encoderLost s := by
  rw [declareLoss, h]

theorem declareLoss_of_drain {s : State} (h : s.cfg.lossAction = .drain) :
    declareLoss s =
      if s.run.state = .running then changeRun .draining none (handLost (enterEstimate s))
      else handLost (enterEstimate s) := by
  rw [declareLoss, h]
  rfl

end Sys2Proof.Machine

open Sys2Proof Sys2Proof.Machine

/-- Settles O44, by the mode of the timebase and what is due at P. -/
theorem encoderPulse : Obligations.EncoderPulse := by
  intro s
  refine ⟨exec_encPulse_of_encoder, fun he ho hd => ?_, fun he hd => ?_, fun he hr => ?_, fun he hr => ?_⟩
  · rw [exec_encPulse_of_encoder he, moveP_of_owed_one (s := s.pulsed) (congrArg Nat.succ ho) hd]
    rfl
  · rw [exec_encPulse_of_encoder he, moveP_of_somethingDue (s := s.pulsed) hd]
    rfl
  · exact (exec_encPulse_of_estimate he).trans (congrArg _ (if_neg (Bool.eq_false_iff.mp hr)))
  · exact (exec_encPulse_of_estimate he).trans (congrArg _ (if_pos hr))

/-- Settles O45: a tick that declares nothing counts, and in estimate mode travels. -/
theorem tickCounts : Obligations.TickCounts := by
  intro s ht hl watch silence counted
  have hcount : countTick (begin s) = counted := by
    by_cases hs : s.silentTick = true
    · rw [countTick_of_silentTick hl hs]
      have : silence = s.time.silence + 1 := if_pos ((silentTick_iff s).mp hs)
      simp only [counted, this]
      rfl
    · rw [countTick_of_not_silentTick (by simpa using hs)]
      have : silence = s.time.silence := if_neg (mt (silentTick_iff s).mpr hs)
      simp only [counted, this]
      rfl
  refine ⟨fun he => ?_, fun he => ?_⟩
  · rw [exec_tick, tickWork_of_counting ht hl, he, hcount]
    rfl
  · rw [exec_tick, tickWork_of_counting ht hl, he, hcount]
    rfl

/-- Settles O46: the loss by the loss action, the expiry in STARTING, where no loss is declared. -/
theorem declaringTicks : Obligations.DeclaringTicks := by
  intro s declares counted
  have hiff : declares ↔ s.declaresLoss = true := (declaresLoss_iff s).symm
  have hloss (h : declares) : exec .encoderLoss s = .next (settle (declareLoss counted)) := by
    rw [exec_encoderLoss_of_declaresLoss (hiff.mp h), exec_tick, tickWork_of_declaresLoss (hiff.mp h)]
    rfl
  have htick (h : declares) : exec .tick s = exec .encoderLoss s :=
    (exec_encoderLoss_of_declaresLoss (hiff.mp h)).symm
  refine ⟨fun h => ?_, fun h ha => ⟨?_, htick h⟩, fun h ha => ⟨htick h, handLost (enterEstimate counted), ?_, rfl, ?_⟩, ?_⟩
  · change execEncoderLoss s = _
    rw [execEncoderLoss, if_neg (mt hiff.mpr h)]
  · rw [hloss h, declareLoss_of_stop (s := counted) ha]
    rfl
  · exact widenAll_items_perm _
  · rw [hloss h, declareLoss_of_drain (s := counted) ha]
  · intro n hn expires
    have hexp : expires ↔ s.timerExpires = true := (timerExpires_iff hn).symm
    refine ⟨fun h => ?_, fun h => ⟨(exec_startTimerExpiry_of_timerExpires (hexp.mp h)).symm, ?_⟩⟩
    · change execStartTimerExpiry s = _
      rw [execStartTimerExpiry, if_neg (mt hexp.mpr h)]
    · have hsilent : s.silentTick = false := by
        by_contra hs
        obtain ⟨⟨hm, _⟩, _⟩ := (silentTick_iff s).mp (by simpa using hs)
        simp [h.1] at hm
      rw [exec_startTimerExpiry_of_timerExpires (hexp.mp h), exec_tick, tickWork_of_timerExpires (hexp.mp h),
        countTick_of_not_silentTick hsilent, State.ticked, hn]
      rfl

end

section
/-! The input lines (O47, O49), the items that fall due (O51, O53) and the resets (O60). -/

namespace Sys2Proof.Machine

theorem next_settle_congr {d e : State} (h : d = e) :
    (.next (settle d) : Host.Outcome State Fault Refusal) = .next (settle e) := by rw [h]

/-! ### TREADY, COVER, trays and stackers -/

theorem exec_treadyRise {s : State} (h : s.pins.tready = false) :
    exec .treadyRise s = .next (settle (treadyUp (setTready true (begin s)))) := by
  change execTreadyRise s = _
  rw [execTreadyRise, if_neg (Bool.eq_false_iff.mp h)]

theorem exec_treadyFall {s : State} (h : s.pins.tready = true) :
    exec .treadyFall s = .next (settle (stopAtP .transportLost (setTready false (begin s)))) := by
  change execTreadyFall s = _
  rw [execTreadyFall, if_pos h]

theorem exec_coverFall {s : State} (h : s.pins.cover = true) :
    exec .coverFall s = .next (settle (stopAtP .coverOpen (setCover false (begin s)))) := by
  change execCoverFall s = _
  rw [execCoverFall, if_pos h]

theorem exec_coverRise {s : State} (h : s.pins.cover = false) :
    exec .coverRise s = .next (settle (setCover true (begin s))) := by
  change execCoverRise s = _
  rw [execCoverRise, if_neg (Bool.eq_false_iff.mp h)]

theorem exec_trayrdyChange {tray : Fin 4} {level : Bool} {s : State} (h : s.pins.trayrdy[tray] ≠ level) :
    exec (.trayrdyChange tray level) s = .next (settle (setTray tray level (begin s))) := by
  change execTrayrdyChange tray level s = _
  rw [execTrayrdyChange, if_neg (show s.trayReady tray ≠ level from h)]

theorem exec_stkfullChange {k : Stacker} {level : Bool} {s : State} (h : s.stackerFull k ≠ level) :
    exec (.stkfullChange k level) s = .next (settle (setStacker k level (begin s))) := by
  change execStkfullChange k level s = _
  rw [execStkfullChange, if_neg h]

/-- A cause is nothing in a state in which it does not stop (R43). -/
theorem stop_of_not_stopsIn {cause : StopCause} {s : State} (h : stopsIn cause s.run.state = false)
    (station : Option Station) (pos : Pos) (launch : Option Launch) (serial : Option Serial) :
    stop cause station pos launch serial s = s := by rw [stop, if_neg (Bool.eq_false_iff.mp h)]

/-! ### Sensor lines -/

theorem exec_sensorLevelChange_of_unserved {l : Fin 16} {level : Bool} {s : State} (hne : s.pins.sensors[l] ≠ level)
    (h : s.stationOf l = none) :
    exec (.sensorLevelChange l level) s = .next (setSensor l level (begin s)) := by
  change execSensorLevelChange l level s = _
  rw [execSensorLevelChange, if_neg hne, h]

theorem exec_sensorLevelChange_of_served {l : Fin 16} {level : Bool} {s : State} {st : Station}
    (hne : s.pins.sensors[l] ≠ level) (h : s.stationOf l = some st) :
    exec (.sensorLevelChange l level) s = .next (settle (rawChange l st level (setSensor l level (begin s)))) := by
  change execSensorLevelChange l level s = _
  rw [execSensorLevelChange, if_neg hne, h]

theorem rawChange_of_pending {l : Fin 16} {st : Station} {level : Bool} {s : State}
    (h : s.expect.lines[l].change ≠ none) : rawChange l st level s = abandonChange l st s := by
  obtain ⟨ch, hch⟩ := Option.ne_none_iff_exists'.mp h
  rw [rawChange, hch]

theorem rawChange_of_stable {l : Fin 16} {st : Station} {level : Bool} {s : State}
    (h : s.expect.lines[l].change = none) (hl : level = s.expect.lines[l].stable) : rawChange l st level s = s := by
  rw [rawChange, h]
  exact if_pos hl

theorem rawChange_of_edge {l : Fin 16} {st : Station} {level : Bool} {s : State}
    (h : s.expect.lines[l].change = none) (hl : level ≠ s.expect.lines[l].stable) :
    rawChange l st level s = openChange l st level s := by
  rw [rawChange, h]
  exact if_neg hl

theorem openChange_of_debounce {l : Fin 16} {st : Station} {level : Bool} {s : State} (h : s.cfg.debounce ≠ 0) :
    openChange l st level s =
      setLine l { stable := s.expect.lines[l].stable, change := some { level := level, stamp := s.time.pos } } s := by
  rw [openChange, if_neg h]

theorem openChange_of_no_debounce {l : Fin 16} {st : Station} {level : Bool} {s : State} (h : s.cfg.debounce = 0) :
    openChange l st level s =
      offerEdge (edgeOf level) st s.time.pos (setLine l { stable := level, change := none } s) := by
  rw [openChange, if_pos h]
  rfl

/-- The condition on an expectation whose expiry a change of the station's line holds (R24). -/
theorem heldBy_condition_iff (s : State) (st : Station) (i : Item) :
    ((i.awaits st .le || i.awaits st .te) && s.reached i.due && s.holdsExpiry i) = true ↔
      (i.awaits st .le = true ∨ i.awaits st .te = true) ∧ s.reached i.due = true ∧ s.holdsExpiry i = true := by
  simp [and_assoc]

theorem heldBy_eq_none {s : State} {st : Station}
    (h : ∀ i ∈ s.expect.items, ¬((i.awaits st .le = true ∨ i.awaits st .te = true) ∧ s.reached i.due = true ∧
      s.holdsExpiry i = true)) : s.heldBy st = none :=
  List.find?_eq_none.mpr fun i hi => mt (heldBy_condition_iff s st i).mp (h i hi)

theorem heldBy_eq_some {s : State} {st : Station} {pre post : List Item} {i : Item}
    (hi : s.expect.items = pre ++ i :: post)
    (hpre : ∀ j ∈ pre, ¬((j.awaits st .le = true ∨ j.awaits st .te = true) ∧ s.reached j.due = true ∧
      s.holdsExpiry j = true))
    (h : (i.awaits st .le = true ∨ i.awaits st .te = true) ∧ s.reached i.due = true ∧ s.holdsExpiry i = true) :
    s.heldBy st = some i := by
  rw [State.heldBy, hi, List.find?_append,
    List.find?_eq_none.mpr fun j hj => mt (heldBy_condition_iff s st j).mp (hpre j hj), Option.none_or]
  exact List.find?_cons_of_pos ((heldBy_condition_iff s st i).mpr h)

theorem abandonChange_of_none {l : Fin 16} {st : Station} {s : State} (h : s.heldBy st = none) :
    abandonChange l st s = setLine l { stable := s.expect.lines[l].stable, change := none } s := by
  rw [abandonChange, h]

theorem abandonChange_of_held {l : Fin 16} {st : Station} {s : State} {i : Item} (h : s.heldBy st = some i) :
    abandonChange l st s = expireItem i (setLine l { stable := s.expect.lines[l].stable, change := none } s) := by
  rw [abandonChange, h]

/-- The cause of an expiry: LATE for a leading edge, LONG for a trailing one (R23, R25). -/
def expiryCause : Edge → StopCause
  | .le => .late
  | .te => .long

/-- An expiry is the stop LATE or LONG of its entry, dated at the item's due position (R23, R25, R36). -/
theorem expireItem_edge {it : Item} {l : Launch} {st : Station} {e : Edge} (hk : it.kind = .edge l st e) (s : State) :
    expireItem it s =
      stop (expiryCause e) (some st) it.due (some l) ((s.entry? l).bind PathEntry.serial) (dropItem it s) := by
  rw [expireItem, hk]
  cases e <;> rfl

/-! ### Items that fall due -/

/-- An expectation is due one position past its window (R23, R33). -/
theorem due_of_edge {it : Item} {l : Launch} {st : Station} {e : Edge} (hk : it.kind = .edge l st e) :
    it.due = it.pos + BitVec.ofNat 24 it.late + 1 := by
  simp only [Item.due, Item.isEdge, hk]
  rfl

theorem itemDue_iff (s : State) (it : Item) :
    s.itemDue it = true ↔ s.reached it.due = true ∧ s.holdsExpiry it = false := by
  simp [State.itemDue]

theorem dueItem_eq_none {s : State} {k : ItemKind}
    (h : ∀ i ∈ s.expect.items, i.kind = k → s.reached i.due = false ∨ s.holdsExpiry i = true) : s.dueItem k = none := by
  refine List.find?_eq_none.mpr fun i hi hc => ?_
  simp only [Bool.and_eq_true, beq_iff_eq, itemDue_iff] at hc
  obtain ⟨hk, hr, hh⟩ := hc
  rcases h i hi hk with hn | hn
  · exact absurd hr (by simp [hn])
  · exact absurd hh (by simp [hn])

theorem begin_dropItem_of_first {s : State} {pre post : List Item} {it : Item}
    (hi : s.expect.items = pre ++ it :: post) (hfirst : ∀ i ∈ pre, i.kind ≠ it.kind) :
    dropItem it (begin s) = { s with out := [], expect := { s.expect with items := pre ++ post } } :=
  dropItem_of_first (s := begin s) hi hfirst

/-- A station's line has a pending change exactly as its debounce state says (R29). -/
theorem stationChange_iff (s : State) (st : Station) (ch : PendingChange) :
    s.stationChange st = some ch ↔
      ∃ n : Fin 16, (s.cfg.station st).line = n.val ∧ s.expect.lines[n].change = some ch := by
  unfold State.stationChange
  split
  · next h =>
    constructor
    · intro hc
      exact ⟨⟨_, h⟩, rfl, hc⟩
    · rintro ⟨n, hn, hc⟩
      simpa [hn] using hc
  · next h =>
    constructor
    · exact nofun
    · rintro ⟨n, hn, -⟩
      exact absurd (hn ▸ n.isLt) h

theorem holdsExpiry_edge_iff {s : State} {i : Item} {la : Launch} {st : Station} {e : Edge}
    (hk : i.kind = .edge la st e) :
    s.holdsExpiry i = true ↔
      ∃ ch, s.stationChange st = some ch ∧ (ch.level = true ↔ e = .le) ∧ i.inWindow ch.stamp = true := by
  simp only [State.holdsExpiry, hk]
  cases hc : s.stationChange st with
  | none => simp
  | some ch => cases hl : ch.level <;> cases e <;> simp [hl]

theorem holdsExpiry_iff (s : State) (i : Item) :
    s.holdsExpiry i = true ↔
      ∃ la st e, i.kind = .edge la st e ∧
        ∃ ch, s.stationChange st = some ch ∧ (ch.level = true ↔ e = .le) ∧ i.inWindow ch.stamp = true := by
  constructor
  · intro h
    cases hk : i.kind
    case edge la st e => exact ⟨la, st, e, rfl, (holdsExpiry_edge_iff hk).mp h⟩
    all_goals simp [State.holdsExpiry, hk] at h
  · rintro ⟨la, st, e, hk, h⟩
    exact (holdsExpiry_edge_iff hk).mpr h

theorem inWindow_iff (i : Item) (q : Pos) :
    i.inWindow q = true ↔ (q - (i.pos - BitVec.ofNat 24 i.early)).toNat ≤ i.early + i.late := by
  simp [Item.inWindow, Item.opens]

/-- A position event is due at its own position, and nothing holds it (R34). -/
theorem due_of_not_edge {it : Item} (h : it.isEdge = false) : it.due = it.pos := by simp [Item.due, h]

theorem holdsExpiry_of_not_edge {s : State} {it : Item} (h : it.isEdge = false) : s.holdsExpiry it = false := by
  unfold Item.isEdge at h
  unfold State.holdsExpiry
  split at h <;> simp_all

theorem itemDue_of_not_edge {s : State} {it : Item} (h : it.isEdge = false) : s.itemDue it = s.reached it.pos := by
  rw [State.itemDue, due_of_not_edge h, holdsExpiry_of_not_edge h]
  simp

end Sys2Proof.Machine

open Sys2Proof Sys2Proof.Machine

/-- Settles O47: each line's command, and the run states in which its cause stops. -/
theorem inputLines : Obligations.InputLines := by
  intro s
  refine ⟨fun ht => ⟨fun hs => ?_, fun hs => ?_⟩, fun ht => ⟨fun _ => exec_treadyFall ht, fun h1 h2 => ?_⟩,
    exec_coverRise, fun hc => ⟨fun _ => exec_coverFall hc, fun h1 h2 h3 => ?_⟩, fun level =>
      ⟨fun tray h => exec_trayrdyChange h, fun h => exec_stkfullChange (k := .a) h,
        fun h => exec_stkfullChange (k := .b) h⟩⟩
  · exact (exec_treadyRise ht).trans (next_settle_congr (if_neg hs))
  · exact (exec_treadyRise ht).trans (next_settle_congr (if_pos hs))
  · exact (exec_treadyFall ht).trans
      (next_settle_congr (stop_of_not_stopsIn (by simp [stopsIn, h1, h2]) none _ none none))
  · exact (exec_coverFall hc).trans
      (next_settle_congr (stop_of_not_stopsIn (by simp [stopsIn, h1, h2, h3]) none _ none none))

/-- Settles O49: what a raw level does by the debounce state of its line. -/
theorem sensorLineChanges : Obligations.SensorLineChanges := by
  intro s l level hne seen line closed held
  refine ⟨exec_sensorLevelChange_of_unserved hne, fun st hst => ?_⟩
  have hexec := exec_sensorLevelChange_of_served hne hst
  refine ⟨fun hc hl => ?_, fun hc hl hd => ?_, fun hc hl hd => ?_, fun hc hn => ?_, fun pre i post la e hc hi hpre hh hk => ?_⟩
  · rw [hexec, rawChange_of_stable (s := setSensor l level (begin s)) hc hl]
    rfl
  · rw [hexec, rawChange_of_edge (s := setSensor l level (begin s)) hc hl,
      openChange_of_debounce (s := setSensor l level (begin s)) hd]
    rfl
  · rw [hexec, rawChange_of_edge (s := setSensor l level (begin s)) hc hl,
      openChange_of_no_debounce (s := setSensor l level (begin s)) hd]
    rfl
  · rw [hexec, rawChange_of_pending (s := setSensor l level (begin s)) hc,
      abandonChange_of_none (heldBy_eq_none (s := setSensor l level (begin s)) hn)]
    rfl
  · have hnot : i ∉ pre := fun hm => hpre i hm hh
    have hdrop : dropItem i closed = { closed with expect := { closed.expect with items := pre ++ post } } := by
      have hci : closed.expect.items = pre ++ i :: post := hi
      rw [dropItem, hci, List.erase_append_right _ hnot, List.erase_cons_head]
    rw [hexec, rawChange_of_pending (s := setSensor l level (begin s)) hc,
      abandonChange_of_held (heldBy_eq_some (s := setSensor l level (begin s)) hi hpre hh)]
    change Host.Outcome.next (settle (expireItem i closed)) = _
    rw [expireItem_edge hk, hdrop]
    cases e <;> rfl

/-- Settles O51: the first item of its kind is taken when it is due, and none before or while it is held. -/
theorem dueItemsTaken : Obligations.DueItemsTaken := by
  intro s
  refine ⟨fun pre post it hi hfirst hr hh => ?_, fun k hk => ?_, fun i => ?_⟩
  · intro d
    have hdue : s.dueItem it.kind = some it := dueItem_of_first hi hfirst ((itemDue_iff s it).mpr ⟨hr, hh⟩)
    have hdrop : dropItem it (begin s) = d := begin_dropItem_of_first hi hfirst
    refine ⟨fun l st e hk => ?_, fun l x hk hx => ?_, fun hk => ?_, fun hk hm => ?_⟩
    · change execExpectationExpiry l st e s = _
      rw [execExpectationExpiry, ← hk, hdue]
      dsimp only
      rw [expireItem_edge hk, hdrop, due_of_edge hk]
      cases e <;> rfl
    · change execPark l s = _
      rw [execPark, ← hk, hdue, hx]
      dsimp only
      rw [hdrop, launch_of_entry? hx]
      rfl
    · change execGapWait s = _
      rw [execGapWait, ← hk, hdue]
      dsimp only
      rw [hdrop]
      rfl
    · change execIdleWait s = _
      rw [execIdleWait, ← hk, hdue]
      dsimp only
      rw [if_pos ((moving_iff s).mpr hm), hdrop]
      rfl
  · have hnone := dueItem_eq_none hk
    cases k
    case edge l st e => exact congrArg Host.Outcome.next (by rw [hnone])
    case div l => exact congrArg Host.Outcome.next (by rw [hnone])
    case park l => exact congrArg Host.Outcome.next (by rw [hnone])
    case top l => exact congrArg Host.Outcome.next (by rw [hnone])
    case check l => exact congrArg Host.Outcome.next (by rw [hnone])
    case gap => exact congrArg Host.Outcome.next (by rw [hnone])
    case idle => exact congrArg Host.Outcome.next (by rw [hnone])
  · rw [holdsExpiry_iff]
    refine exists_congr fun la => exists_congr fun st => exists_congr fun e => and_congr_right fun _ => ?_
    simp only [stationChange_iff, inWindow_iff]
    constructor
    · rintro ⟨ch, ⟨n, hn, hc⟩, h⟩
      exact ⟨n, ch, hn, hc, h⟩
    · rintro ⟨n, ch, hn, hc, h⟩
      exact ⟨ch, ⟨n, hn, hc⟩, h⟩

end

section
/-! Imaging (O53) and the resets (O60). -/

namespace Sys2Proof.Machine

/-! ### The TOP event and the underrun check -/

/-- The side that an attached entry images on its leg (R99). -/
theorem sideOf_eq_some {x : PathEntry} {y : LogicalSheet} {side : Side} {r : SideRec} (hy : x.sheet = some y)
    (h : x.leg = .first ∧ side = .front ∧ r = y.front ∨ x.leg = .second ∧ side = .back ∧ y.back = some r) :
    sideOf x = some (side, r) := by
  rcases h with ⟨hl, rfl, rfl⟩ | ⟨hl, rfl, hr⟩
  · simp [sideOf, hy, hl]
  · simp [sideOf, hy, hl, hr]

theorem markOf_eq (c : Setup) (x : PathEntry) (side : Side) (r : SideRec) :
    markOf c x side r =
      if c.markEnable then
        r.mark.map fun m =>
          { offset := m, bytes := expandMark (markValue (x.serial.getD 0) x.ident.index x.ident.last side) }
      else none := by
  unfold markOf
  cases r.mark <;> simp

/-- A TOP item that is due fires for its entry (R34, R101). -/
theorem exec_top_of_due {s : State} {pre post : List Item} {it : Item} {l : Launch} {x : PathEntry} {side : Side}
    {r : SideRec} (hi : s.expect.items = pre ++ it :: post) (hfirst : ∀ i ∈ pre, i.kind ≠ it.kind)
    (hk : it.kind = .top l) (hpos : s.reached it.pos = true) (hx : s.entry? l = some x)
    (hside : sideOf x = some (side, r)) :
    exec (.top l) s =
      .next (settle (topEvent x side r it.pos
        { s with out := [], expect := { s.expect with items := pre ++ post } })) := by
  have hdue : s.dueItem (.top l) = some it := by
    rw [← hk]
    exact dueItem_of_first hi hfirst (by rw [itemDue_of_not_edge (by simp [Item.isEdge, hk]), hpos])
  change execTop l s = _
  rw [execTop, hdue, hx]
  dsimp only
  rw [begin_dropItem_of_first hi hfirst, fireTop, hside]

/-- A check item that is due ends its entry's current side (R34, R104). -/
theorem exec_underrunCheck_of_due {s : State} {pre post : List Item} {it : Item} {l : Launch} {x : PathEntry}
    {c : CurrentSide} (hi : s.expect.items = pre ++ it :: post) (hfirst : ∀ i ∈ pre, i.kind ≠ it.kind)
    (hk : it.kind = .check l) (hpos : s.reached it.pos = true) (hx : s.entry? l = some x)
    (hc : s.image.current = some c) (hl : c.launch = l) :
    exec (.underrunCheck l) s =
      .next (settle (checkSide x c it.pos
        { s with out := [], expect := { s.expect with items := pre ++ post } })) := by
  have hdue : s.dueItem (.check l) = some it := by
    rw [← hk]
    exact dueItem_of_first hi hfirst (by rw [itemDue_of_not_edge (by simp [Item.isEdge, hk]), hpos])
  have hxl : c.launch = x.launch := hl.trans (launch_of_entry? hx).symm
  change execUnderrunCheck l s = _
  rw [execUnderrunCheck, hdue, hx]
  dsimp only
  rw [begin_dropItem_of_first hi hfirst, fireCheck, hc]
  exact next_settle_congr (if_pos hxl)

/-! ### Resets -/

theorem keeps_iff (w : WatchUnit) : w.keeps = true ↔ ∃ p, w.program = some p ∧ p.keep = true := by
  unfold WatchUnit.keeps
  cases w.program <;> simp

theorem overReset_of_keeps {w : WatchUnit} (h : w.keeps = true) : w.overReset = w := if_pos h

theorem overReset_of_not_keeps {w : WatchUnit} (h : w.keeps = false) : w.overReset = WatchUnit.cleared :=
  if_neg (Bool.eq_false_iff.mp h)

/-- A unit hands a record over a system reset exactly when it is kept with pending hits (R174). -/
theorem mem_carried_overReset (w : WatchUnit) (q : Queued) :
    q ∈ w.overReset.carried ↔
      ∃ p, w.keeps = true ∧ 0 < w.hits ∧ w.first = some p ∧
        q = { record := .watchHit { particulars := p, hits := w.hits, carried := true }, fixed := false } := by
  cases hk : w.keeps
  · rw [overReset_of_not_keeps hk]
    simp [WatchUnit.carried, WatchUnit.cleared]
  · rw [overReset_of_keeps hk, WatchUnit.carried]
    cases w.first with
    | none => simp
    | some p => by_cases hh : 0 < w.hits <;> simp [hh]

theorem afterSystem_unit (base : BitVec 4) (s : State) (u : UnitId) :
    (afterSystem base s).watch.unit u = (s.watch.unit u).overReset := by cases u <;> rfl

theorem mem_afterSystem_queue (base : BitVec 4) (s : State) (q : Queued) :
    q ∈ (afterSystem base s).report.queue ↔ ∃ u, q ∈ (s.watch.unit u).overReset.carried := by
  have hqueue : (afterSystem base s).report.queue = s.watch.w0.overReset.carried ++ s.watch.w1.overReset.carried := rfl
  rw [hqueue, List.mem_append]
  constructor
  · rintro (h | h)
    · exact ⟨.w0, h⟩
    · exact ⟨.w1, h⟩
  · rintro ⟨u | u, h⟩
    · exact .inl h
    · exact .inr h

end Sys2Proof.Machine

open Sys2Proof Sys2Proof.Machine

/-- Settles O53: the item that is due fires, and the check compares the progress with the raster's end. -/
theorem sideImagedAndChecked : Obligations.SideImagedAndChecked := by
  refine ⟨?_, ?_⟩
  · intro s pre post it l x y side r hi hfirst hk hpos hx hy hside mark
    rw [exec_top_of_due hi hfirst hk hpos hx (sideOf_eq_some hy hside), topEvent, markOf_eq, launch_of_entry? hx]
    rfl
  · intro s pre post it l x c hi hfirst hk hpos hx hc hl d
    have hexec := exec_underrunCheck_of_due hi hfirst hk hpos hx hc hl
    exact ⟨fun h => hexec.trans (next_settle_congr (if_neg (Nat.not_lt.mpr h))),
      fun h => hexec.trans (next_settle_congr (if_pos h))⟩

/-- Settles O60: a power-on reset by its definition, a system reset unit by unit. -/
theorem resets : Obligations.Resets := by
  intro s base on kept
  have hkept (w : WatchUnit) : kept w ↔ w.keeps = true := (keeps_iff w).symm
  refine ⟨rfl, afterSystem base s, rfl, rfl, fun u => ⟨fun h => ?_, fun h => ?_⟩, fun h => ?_, fun h => ?_, fun q => ?_⟩
  · rw [afterSystem_unit, overReset_of_keeps ((hkept _).mp h)]
  · rw [afterSystem_unit, overReset_of_not_keeps (by simpa using mt (hkept _).mpr h)]
    rfl
  · exact if_pos h
  · exact if_neg (Bool.eq_false_iff.mp h)
  · simp only [mem_afterSystem_queue, mem_carried_overReset, hkept]

end

section
/-! SUPPORT. The outbound queue's coalescing slots (R138, R152, R158), and the completion of forwarded accesses (R131, R140,
R103, R109). -/

namespace Sys2Proof.Machine

/-! ### Coalescing records -/

theorem handOrFold_of_closed {f : Record → Option Record} {new : Record} {s : State}
    (h : ∀ q ∈ s.report.queue, q.fixed = true ∨ f q.record = none) : handOrFold f new s = handRecord new s := by
  rw [handOrFold, (updateOpen_eq_none f s.report.queue).mpr h]

theorem handOrFold_of_open {f : Record → Option Record} {new x y : Record} {s : State} {qs rs : List Queued}
    (hq : s.report.queue = qs ++ { record := x, fixed := false } :: rs)
    (h : ∀ q ∈ qs, q.fixed = true ∨ f q.record = none) (hx : f x = some y) :
    handOrFold f new s =
      { s with report := { s.report with queue := qs ++ { record := y, fixed := false } :: rs } } := by
  rw [handOrFold, hq, updateOpen_append f qs rs x y h hx]

/-- A queued record that is no open POLICY record of the row takes no fold of that row (R138). -/
theorem foldPolicy_refuses {row : PolicyRow} (o : PolicyField) {q : Queued}
    (h : ∀ r, q = { record := .policy r, fixed := false } → r.row ≠ row) :
    q.fixed = true ∨ foldPolicy row o q.record = none := by
  obtain ⟨record, fixed⟩ := q
  cases fixed with
  | true => exact .inl rfl
  | false =>
    refine .inr ?_
    cases record with
    | policy r => exact if_neg (h r rfl)
    | _ => rfl

theorem foldState_refuses (new : StateRec) {q : Queued} (h : ∀ p, q ≠ { record := .state p, fixed := false }) :
    q.fixed = true ∨ foldState new q.record = none := by
  obtain ⟨record, fixed⟩ := q
  cases fixed with
  | true => exact .inl rfl
  | false =>
    refine .inr ?_
    cases record with
    | state p => exact absurd rfl (h p)
    | _ => rfl

theorem foldSetup_refuses (new : SetupRec) {q : Queued} (h : ∀ p, q ≠ { record := .setup p, fixed := false }) :
    q.fixed = true ∨ foldSetup new q.record = none := by
  obtain ⟨record, fixed⟩ := q
  cases fixed with
  | true => exact .inl rfl
  | false =>
    refine .inr ?_
    cases record with
    | setup p => exact absurd rfl (h p)
    | _ => rfl

theorem foldPolicy_of_row {row : PolicyRow} (o : PolicyField) {r : PolicyRec} (h : r.row = row) :
    foldPolicy row o (.policy r) =
      some (.policy { r with count := min (r.count + 1) 255, mixed := r.mixed || decide (r.outcome ≠ o) }) := by
  have hm : (r.outcome != o) = decide (r.outcome ≠ o) := by rw [bne, decide_not]; rfl
  rw [foldPolicy, if_pos h, hm, count255]

/-! ### Completed writes -/

theorem grantedWrite_of_granted {s : State} {f : Forwarded} (hg : s.pass.granted = some (.forwarded f))
    (hw : f.access.write = true) : s.grantedWrite = some f := by
  simp [State.grantedWrite, State.grantedForward, hg, hw]

theorem grantedRead_of_granted {s : State} {f : Forwarded} (hg : s.pass.granted = some (.forwarded f))
    (hw : f.access.write = false) : s.grantedRead = some f := by
  simp [State.grantedRead, State.grantedForward, hg, hw]

/-- The slot of a post: the write covers byte 56 of it with the value 1 and stays in one 64-byte block, which is the slot
(R1). -/
theorem postOf_of_covers {s : State} {a : Access} {i : Nat} (hw : a.write = true) (hs : s.run.state ≠ .unset)
    (halign : s.cfg.orderBase % 64 = 0) (hi : i < s.cfg.orderSlots) (hblock : a.addr % 64 + a.len ≤ 64)
    (hcover : a.covers (s.cfg.orderBase + 64 * i + 56) = true)
    (hone : a.byteFor (s.cfg.orderBase + 64 * i + 56) = 1) : s.postOf a = some i := by
  have hrange : a.addr ≤ s.cfg.orderBase + 64 * i + 56 ∧ s.cfg.orderBase + 64 * i + 56 < a.addr + a.len := by
    simpa [Access.covers] using hcover
  have hle : s.cfg.orderBase ≤ a.addr := by omega
  have hslot : (a.addr - s.cfg.orderBase) / 64 = i := by omega
  simp [State.postOf, State.isSet, hw, hs, hle, hslot, hi, hcover, hone]

/-- A completed write that is a post alone has the post's notice (R1, R13). -/
theorem completeWrite_of_post {f : Forwarded} {s : State} {i : Nat} (hp : s.postOf f.access = some i)
    (hc : s.isCommit f.access = false) (ht : s.touchesTail f.access = false) :
    completeWrite f s = emit (.busDone f.access.tag true []) (notePost i s) := by
  simp [completeWrite, hp, hc, ht]

theorem completeWrite_of_commit {f : Forwarded} {s : State} (hp : s.postOf f.access = none)
    (hc : s.isCommit f.access = true) (ht : s.touchesTail f.access = false) :
    completeWrite f s = emit (.busDone f.access.tag true []) (noteCommit s) := by
  simp [completeWrite, hp, hc, ht]

theorem completeWrite_of_tail {f : Forwarded} {s : State} (hp : s.postOf f.access = none)
    (hc : s.isCommit f.access = false) (ht : s.touchesTail f.access = true) :
    completeWrite f s = emit (.busDone f.access.tag true []) (noteTail f s) := by
  simp [completeWrite, hp, hc, ht]

theorem completeWrite_of_none {f : Forwarded} {s : State} (hp : s.postOf f.access = none)
    (hc : s.isCommit f.access = false) (ht : s.touchesTail f.access = false) :
    completeWrite f s = emit (.busDone f.access.tag true []) s := by
  simp [completeWrite, hp, hc, ht]

section
variable {s : State} {f : Forwarded}

theorem exec_forwardedWriteComplete_of_write (ok : Bool) (hg : s.pass.granted = some (.forwarded f))
    (hw : f.access.write = true) :
    exec (.forwardedWriteComplete ok) s =
      .next (if ok then completeWrite f (freePort (begin s))
        else emit (.busDone f.access.tag false []) (freePort (begin s))) := by
  change execForwardedWriteComplete ok s = _
  rw [execForwardedWriteComplete, grantedWrite_of_granted hg hw]

theorem exec_orderPost_of_post (hg : s.pass.granted = some (.forwarded f)) (hw : f.access.write = true)
    (hp : s.postOf f.access ≠ none) : exec .orderPost s = .next (completeWrite f (freePort (begin s))) := by
  change execOrderPost s = _
  rw [execOrderPost, grantedWrite_of_granted hg hw]
  exact congrArg _ (if_pos (Option.isSome_iff_ne_none.mpr hp))

theorem exec_commitWrite_of_commit (hg : s.pass.granted = some (.forwarded f)) (hw : f.access.write = true)
    (hc : s.isCommit f.access = true) : exec .commitWrite s = .next (completeWrite f (freePort (begin s))) := by
  change execCommitWrite s = _
  rw [execCommitWrite, grantedWrite_of_granted hg hw]
  exact congrArg _ (if_pos hc)

theorem exec_tailWrite_of_tail (hg : s.pass.granted = some (.forwarded f)) (hw : f.access.write = true)
    (ht : s.touchesTail f.access = true) : exec .tailWrite s = .next (completeWrite f (freePort (begin s))) := by
  change execTailWrite s = _
  rw [execTailWrite, grantedWrite_of_granted hg hw]
  exact congrArg _ (if_pos ht)

end

/-! ### The tail check -/

theorem wholeTail_iff (s : State) (a : Access) :
    s.wholeTail a = true ↔ a.addr ≤ s.cfg.controlBase + 8 ∧ s.cfg.controlBase + 8 + 3 < a.addr + a.len := by
  simp only [State.wholeTail, Access.covers, Bool.and_eq_true, decide_eq_true_eq]
  omega

theorem touchesTail_iff {s : State} {a : Access} (hs : s.run.state ≠ .unset) (hw : a.write = true) :
    s.touchesTail a = true ↔ touches a.addr a.len (s.cfg.controlBase + 8) 4 := by
  simp [State.touchesTail, State.isSet, hs, hw, overlaps_iff]

/-- A write of the whole tail value touches it. -/
theorem touchesTail_of_wholeTail {s : State} {a : Access} (hs : s.run.state ≠ .unset) (hw : a.write = true)
    (h : s.wholeTail a = true) : s.touchesTail a = true := by
  obtain ⟨hlo, hhi⟩ := (wholeTail_iff s a).mp h
  exact (touchesTail_iff hs hw).mpr ⟨s.cfg.controlBase + 8, hlo, by omega, by omega, by omega⟩

theorem noteTail_of_part {s : State} {f : Forwarded} (h : s.wholeTail f.access = false) :
    noteTail f s = handPolicy .tailValue .partialWrite f none (some s.report.tail) s := by
  simp [noteTail, h]

section
variable {s : State} {f : Forwarded} (h : s.wholeTail f.access = true)
include h

theorem noteTail_of_range (hv : s.cfg.reportSlots ≤ tailValue s f.access) :
    noteTail f s = handPolicy .tailValue .range f (some (tailValue s f.access)) (some s.report.tail) s := by
  simp [noteTail, h, hv]

theorem noteTail_of_order (hv : tailValue s f.access < s.cfg.reportSlots)
    (ho : ringDistance s.cfg.reportSlots s.report.tail s.report.visible <
      ringDistance s.cfg.reportSlots s.report.tail (tailValue s f.access)) :
    noteTail f s = handPolicy .tailValue .order f (some (tailValue s f.access)) (some s.report.tail) s := by
  simp [noteTail, h, Nat.not_le.mpr hv, ho]

theorem noteTail_of_taken (hv : tailValue s f.access < s.cfg.reportSlots)
    (ho : ringDistance s.cfg.reportSlots s.report.tail (tailValue s f.access) ≤
      ringDistance s.cfg.reportSlots s.report.tail s.report.visible) :
    noteTail f s = { s with report := { s.report with tail := tailValue s f.access } } := by
  simp [noteTail, h, Nat.not_le.mpr hv, Nat.not_lt.mpr ho]

end

theorem handPolicy_out (row : PolicyRow) (o : PolicyField) (f : Forwarded) (value view : Option Nat) (s : State) :
    (handPolicy row o f value view s).out = s.out := by simp

/-! ### Setup reads -/

theorem setup_reads_append (s : State) (own : List OwnAccess) (issued n : Nat) :
    own ++ [{ kind := .setupRead issued, addr := s.setupBase + 64 * issued, len := 64, data := [] }] ++
        (List.range n).map (fun k =>
          ({ kind := .setupRead (issued + 1 + k), addr := s.setupBase + 64 * (issued + 1 + k), len := 64, data := [] } :
            OwnAccess)) =
      own ++ (List.range (n + 1)).map fun k =>
        { kind := .setupRead (issued + k), addr := s.setupBase + 64 * (issued + k), len := 64, data := [] } := by
  rw [List.range_succ_eq_map, List.map_cons, List.map_map, List.append_assoc, List.singleton_append]
  simp [Function.comp_def, Nat.add_assoc, Nat.add_comm 1]

/-- Setup control hands over its next reads while the own-access FIFO has room (R141, R147). -/
theorem fillSetupReads_eq (n : Nat) (s : State) (hroom : 16 ≤ s.pass.own.length + n)
    (hissued : s.setup.issued + (16 - s.pass.own.length) ≤ 64) :
    fillSetupReads n s =
      { s with
        pass :=
          { s.pass with
            own := s.pass.own ++
              (List.range (16 - s.pass.own.length)).map fun k =>
                { kind := .setupRead (s.setup.issued + k), addr := s.setupBase + 64 * (s.setup.issued + k), len := 64
                  data := [] } }
        setup := { s.setup with issued := s.setup.issued + (16 - s.pass.own.length) } } := by
  induction n generalizing s with
  | zero =>
    have h0 : 16 - s.pass.own.length = 0 := by omega
    simp [fillSetupReads, h0]
  | succ n ih =>
    by_cases hr : s.pass.own.length < 16
    · have hi : s.setup.issued < 64 := by omega
      obtain ⟨m, hm⟩ : ∃ m, 16 - s.pass.own.length = m + 1 := ⟨16 - s.pass.own.length - 1, by omega⟩
      have hm' : 16 - (pushSetupRead s).pass.own.length = m := by
        simp [pushSetupRead, pushOwn]; omega
      rw [fillSetupReads, if_pos (by simp [State.ownRoom, hr, hi]),
        ih (pushSetupRead s) (by simp [pushSetupRead, pushOwn]; omega) (by simp [pushSetupRead, pushOwn]; omega), hm', hm,
        ← setup_reads_append]
      simp [pushSetupRead, pushOwn, State.setupBase, Nat.add_assoc, Nat.add_comm 1]
    · have h0 : 16 - s.pass.own.length = 0 := by omega
      rw [fillSetupReads, if_neg (by simp [State.ownRoom, hr])]
      simp [h0]

/-- A fetch begins with as many reads as the own-access FIFO has room for (R146, R147). -/
theorem beginFetch_eq (s : State) :
    beginFetch s =
      { s with
        pass :=
          { s.pass with
            own := s.pass.own ++
              (List.range (16 - s.pass.own.length)).map fun k =>
                { kind := .setupRead k, addr := s.setupBase + 64 * k, len := 64, data := [] } }
        setup :=
          { s.setup with
            fetch := .fetching, issued := 16 - s.pass.own.length, done := 0, failed := false, copy := [] } } := by
  rw [beginFetch, fillSetupReads_eq 16 _ (Nat.le_add_left ..) (by simp only; omega)]
  simp [State.setupBase]

theorem noteCommit_of_busy {s : State} (h : s.setup.fetch ≠ .idle ∨ s.run.state ≠ .unset ∧ s.run.state ≠ .idle) :
    noteCommit s = handRefusal .busy 0 s := by
  refine if_neg ?_
  rintro ⟨hidle, hrun⟩
  rcases h with h | ⟨hu, hi⟩
  · exact h hidle
  · exact hrun.elim hu hi

/-- A write that is a commit write alone has setup control's answer and returns OK (R131, R146). -/
theorem exec_commitWrite_of_only {s : State} {f : Forwarded} (hg : s.pass.granted = some (.forwarded f))
    (hw : f.access.write = true) (hc : s.isCommit f.access = true) (hp : s.postOf f.access = none)
    (ht : s.touchesTail f.access = false) {u : State} (hu : noteCommit (freePort (begin s)) = u) (hout : u.out = []) :
    exec .commitWrite s = .next { u with out := [.busDone f.access.tag true []] } := by
  rw [exec_commitWrite_of_commit hg hw hc, completeWrite_of_commit (s := freePort (begin s)) hp hc ht, hu, emit, hout]
  rfl

theorem carriesSetupRead_of_granted {s : State} {a : OwnAccess} {k : Nat} (hg : s.pass.granted = some (.own a))
    (hk : a.kind = .setupRead k) : s.carriesSetupRead = true := by
  simp [State.carriesSetupRead, State.grantedOwn, hg, hk]

theorem exec_setupFetchReadComplete_of_read {s : State} {data : List Byte} (hread : s.carriesSetupRead = true)
    (hfetch : s.setup.fetch = .fetching) (hlen : data.length = 64) :
    exec (.setupFetchReadComplete data) s = .next (noteSetupRead true data (freePort (begin s))) :=
  congrArg _ (if_pos (by simp [hread, hfetch, hlen]))

theorem noteSetupRead_of_more {s : State} {data : List Byte} (h : s.setup.done + 1 < 64) :
    noteSetupRead true data s =
      { s with setup := { s.setup with copy := s.setup.copy ++ [data], done := s.setup.done + 1 } } := by
  simp [noteSetupRead, endFetch, h]

theorem noteSetupRead_of_last {s : State} {data : List Byte} (h : 64 ≤ s.setup.done + 1)
    (hok : s.setup.failed = false) :
    noteSetupRead true data s =
      { s with
        setup := { s.setup with copy := s.setup.copy ++ [data], done := s.setup.done + 1, fetch := .deciding } } := by
  simp [noteSetupRead, endFetch, Nat.not_lt.mpr h, hok]

theorem noteSetupRead_of_failed {s : State} {data : List Byte} (h : 64 ≤ s.setup.done + 1)
    (hfail : s.setup.failed = true) :
    noteSetupRead true data s =
      handRefusal .memory 0
        { s with setup := { s.setup with copy := [], done := s.setup.done + 1, fetch := .idle } } := by
  simp [noteSetupRead, endFetch, Nat.not_lt.mpr h, hfail]

/-! ### Completed reads -/

theorem exec_forwardedReadComplete_error {s : State} {f : Forwarded} (data : List Byte)
    (hg : s.pass.granted = some (.forwarded f)) (hw : f.access.write = false) :
    exec (.forwardedReadComplete false data) s =
      .next { s with pass := { s.pass with granted := none }, out := [.busDone f.access.tag false []] } := by
  change execForwardedReadComplete false data s = _
  rw [execForwardedReadComplete, grantedRead_of_granted hg hw]
  rfl

theorem exec_forwardedReadComplete_ok {s : State} {f : Forwarded} {data : List Byte}
    (hg : s.pass.granted = some (.forwarded f)) (hw : f.access.write = false) (hlen : data.length = f.access.len) :
    exec (.forwardedReadComplete true data) s = .next (completeRead f data { freePort s with out := [] }) := by
  change execForwardedReadComplete true data s = _
  rw [execForwardedReadComplete, grantedRead_of_granted hg hw]
  exact congrArg _ (if_pos hlen)

theorem completeRead_of_plain {s : State} {f : Forwarded} {data : List Byte}
    (h : s.image.current = none ∨ f.cls ≠ .imager) :
    completeRead f data { s with out := [] } = { s with out := [.busDone f.access.tag true data] } := by
  cases hc : s.image.current with
  | none => simp [completeRead, hc, emit]
  | some c =>
    have hcls : f.cls ≠ .imager := h.resolve_left (by simp [hc])
    simp [completeRead, hc, hcls, emit]

theorem completeRead_of_imager {s : State} {f : Forwarded} {data : List Byte} {c : CurrentSide}
    (hc : s.image.current = some c) (hcls : f.cls = .imager) :
    completeRead f data { s with out := [] } =
      { s with
        image := { s.image with current := some { c with progress := progressAfter c f.access.addr f.access.len } }
        out := [.busDone f.access.tag true (substitute s.cfg.markLines c f.access.addr data)] } := by
  simp [completeRead, hc, hcls, emit, State.cfg]

end Sys2Proof.Machine

open Sys2Proof Sys2Proof.Machine

/-- Settles O17: each kind's fold takes the first open record that it accepts, and hands a new one when none does. -/
theorem recordsCoalesce : Obligations.RecordsCoalesce := by
  refine ⟨fun row o f value view s => ⟨fun h => ?_, fun qs rs r hq hr h => ?_⟩,
    fun new cause s => ⟨fun h => ?_, fun qs rs p hq h => ?_⟩, fun o fetched s => ⟨fun h => ?_, fun qs rs p hq h => ?_⟩⟩
  · exact handOrFold_of_closed fun q hq => foldPolicy_refuses o (h q hq)
  · exact handOrFold_of_open hq (fun q hm => foldPolicy_refuses o (h q hm)) (foldPolicy_of_row o hr)
  · exact handOrFold_of_closed fun q hq => foldState_refuses _ (h q hq)
  · exact handOrFold_of_open hq (fun q hm => foldState_refuses _ (h q hm)) rfl
  · exact handOrFold_of_closed fun q hq => foldSetup_refuses _ (h q hq)
  · exact handOrFold_of_open hq (fun q hm => foldSetup_refuses _ (h q hm)) rfl

/-- Settles O19: the write lies in the slot whose byte 56 it covers, so that slot is the post's, and the map takes its
index. -/
theorem postJoinsMap : Obligations.PostJoinsMap := by
  intro s f i hg hw hs halign hi hblock hcover hone hc ht
  have hp : s.postOf f.access = some i := postOf_of_covers hw hs halign hi hblock hcover hone
  refine ⟨insertSlot i s.fetch.posted, fun j => mem_insertSlot i j _, ?_⟩
  rw [exec_orderPost_of_post hg hw (by simp [hp]),
    completeWrite_of_post (s := freePort (begin s)) (i := i) hp hc ht]
  have hne : (s.fetch.next != i) = decide (s.fetch.next ≠ i) := by rw [bne, decide_not]; rfl
  simp only [notePost, emit, freePort, begin, hne, List.nil_append]

/-- Settles O21: the write is whole or partial, its value in range or not, in ring order or not, and the check names the
first that fails. -/
theorem tailWriteChecked : Obligations.TailWriteChecked := by
  intro s f hg hw hs hp hc free done first v n whole order
  have hpart (hwt : ¬whole) : s.wholeTail f.access = false :=
    Bool.eq_false_iff.mpr fun h => hwt ((wholeTail_iff s f.access).mp h)
  have htail (hwt : whole) : s.touchesTail f.access = true :=
    touchesTail_of_wholeTail hs hw ((wholeTail_iff s f.access).mpr hwt)
  have hexec (ht : s.touchesTail f.access = true) (u : State) (hu : noteTail f free = u) (hout : u.out = []) :
      exec .tailWrite s = .next (done u) := by
    rw [exec_tailWrite_of_tail hg hw ht, completeWrite_of_tail (s := freePort (begin s)) hp hc ht]
    subst hu
    exact congrArg (fun o => Host.Outcome.next { noteTail f free with out := o ++ [Output.busDone f.access.tag true []] }) hout
  refine ⟨fun hwt hv ho => ?_, fun hwt hv => ?_, fun hwt hv ho => ?_, fun hwt ht => ?_⟩
  · exact hexec (htail hwt) _ (noteTail_of_taken ((wholeTail_iff s f.access).mpr hwt) hv ho) rfl
  · exact hexec (htail hwt) _ (noteTail_of_range ((wholeTail_iff s f.access).mpr hwt) hv) (handPolicy_out ..)
  · exact hexec (htail hwt) _ (noteTail_of_order ((wholeTail_iff s f.access).mpr hwt) hv (Nat.lt_of_not_le ho))
      (handPolicy_out ..)
  · exact hexec ((touchesTail_iff hs hw).mpr ht) _ (noteTail_of_part (hpart hwt)) (handPolicy_out ..)

/-- Settles O20: the first reads go out as room allows, and a read that completes is counted until the last. -/
theorem setupFetch : Obligations.SetupFetch := by
  constructor
  · intro s f hg hw hcover hone hp ht free done
    have hc : s.isCommit f.access = true := by simp [State.isCommit, hw, hcover, hone]
    constructor
    · intro hidle hrun
      exact exec_commitWrite_of_only hg hw hc hp ht
        ((if_pos ⟨hidle, hrun⟩ : noteCommit free = beginFetch free).trans (beginFetch_eq free)) rfl
    · intro hbusy
      exact exec_commitWrite_of_only hg hw hc hp ht (noteCommit_of_busy (s := free) hbusy) (by simp [free])
  · intro s a k data hg hk hfetch hlen free copy n
    have hexec := exec_setupFetchReadComplete_of_read (carriesSetupRead_of_granted hg hk) hfetch hlen
    refine ⟨fun hn => ?_, fun hn hok => ?_, fun hn hfail => ?_⟩
    · exact hexec.trans (congrArg _ (noteSetupRead_of_more (s := free) hn))
    · exact hexec.trans (congrArg _ (noteSetupRead_of_last (s := free) hn hok))
    · exact hexec.trans (congrArg _ (noteSetupRead_of_failed (s := free) hn hfail))

/-- Settles O22: the notices of a completed write are those of the command that it is. -/
theorem forwardedWriteReturns : Obligations.ForwardedWriteReturns := by
  intro s f hg hw
  have hexec (ok : Bool) := exec_forwardedWriteComplete_of_write ok hg hw
  refine ⟨hexec false, fun hp hc ht => ?_, fun hp => ?_, fun hc => ?_, fun ht => ?_⟩
  · exact (hexec true).trans (congrArg _ (completeWrite_of_none (s := freePort (begin s)) hp hc ht))
  · exact (hexec true).trans (exec_orderPost_of_post hg hw hp).symm
  · exact (hexec true).trans (exec_commitWrite_of_commit hg hw hc).symm
  · exact (hexec true).trans (exec_tailWrite_of_tail hg hw ht).symm

/-- Settles O23: a read of another class, or without a current side, returns memory's bytes; the imager's read raises the
progress and has the mark put in. -/
theorem forwardedReadReturns : Obligations.ForwardedReadReturns := by
  intro s f data hg hw free
  refine ⟨exec_forwardedReadComplete_error data hg hw, fun hlen hno => ?_, fun c hlen hc hcls => ?_⟩
  · exact (exec_forwardedReadComplete_ok hg hw hlen).trans (congrArg _ (completeRead_of_plain (s := free) hno))
  · refine ⟨progressAfter c f.access.addr f.access.len, _,
      (exec_forwardedReadComplete_ok hg hw hlen).trans (congrArg _ (completeRead_of_imager (s := free) hc hcls)), rfl,
      fun ht => ?_, fun ht => ?_⟩
    · exact if_pos ((overlaps_iff ..).mpr ht)
    · exact if_neg fun h => ht ((overlaps_iff ..).mp h)

end

section
/-! SUPPORT. The sheet mark in the imager's reads (R107, R109), and accesses at the board bus port (R131 to R138, R167). -/

namespace Sys2Proof.Machine

/-! ### The mark -/

theorem substitute_length (lines : Nat) (c : CurrentSide) (a : Nat) (data : List Byte) :
    (substitute lines c a data).length = data.length := by
  induction data generalizing a with
  | nil => rfl
  | cons b bs ih => simp [substitute, ih]

theorem substitute_getElem? (lines : Nat) (c : CurrentSide) (a : Nat) (data : List Byte) (i : Nat) :
    (substitute lines c a data)[i]? = data[i]?.map (markByte lines c (a + i)) := by
  induction data generalizing a i with
  | nil => rfl
  | cons b bs ih =>
    cases i with
    | zero => rfl
    | succ i => simp [substitute, ih, Nat.add_assoc, Nat.add_comm 1]

/-- Mark lines do not overlap, so an offset in the mark area has one mark position (R106, R109). -/
theorem markPosition_of_in {lines stride offset k j : Nat} (hs : 16 ≤ stride) (hk : k < lines) (hj : j < 16) :
    markPosition lines stride offset (offset + k * stride + j) = some j := by
  have hline : ∀ k', offset + k' * stride ≤ offset + k * stride + j →
      offset + k * stride + j < offset + k' * stride + 16 → k' = k := by
    intro k' hlo hhi
    rcases Nat.lt_trichotomy k' k with h | h | h
    · have := Nat.mul_le_mul_right stride (Nat.succ_le_of_lt h)
      rw [Nat.succ_mul] at this
      omega
    · exact h
    · have := Nat.mul_le_mul_right stride (Nat.succ_le_of_lt h)
      rw [Nat.succ_mul] at this
      omega
  unfold markPosition
  cases hf : (List.range lines).find? fun k' =>
      decide (offset + k' * stride ≤ offset + k * stride + j) &&
        decide (offset + k * stride + j < offset + k' * stride + 16) with
  | none =>
    have := List.find?_eq_none.mp hf k (List.mem_range.mpr hk)
    simp [hj] at this
  | some k' =>
    have hp := List.find?_some hf
    simp only [Bool.and_eq_true, decide_eq_true_eq] at hp
    simp [hline k' hp.1 hp.2]

theorem markPosition_of_out {lines stride offset o : Nat}
    (h : ∀ k j, k < lines → j < 16 → o ≠ offset + k * stride + j) : markPosition lines stride offset o = none := by
  rw [markPosition, Option.map_eq_none_iff, List.find?_eq_none]
  intro k hk hp
  simp only [Bool.and_eq_true, decide_eq_true_eq] at hp
  exact h k (o - (offset + k * stride)) (List.mem_range.mp hk) (by omega) (by omega)

section
variable {lines a : Nat} {c : CurrentSide} {m : Mark} (hm : c.mark = some m) (ha : c.base ≤ a)
include hm ha

theorem markByte_of_in {j : Nat} (b : Byte) (hp : markPosition lines c.stride m.offset (a - c.base) = some j) :
    markByte lines c a b = m.bytes.getD j b := by
  simp [markByte, hm, Nat.not_lt.mpr ha, hp]

theorem markByte_of_out (b : Byte) (hp : markPosition lines c.stride m.offset (a - c.base) = none) :
    markByte lines c a b = b := by
  simp [markByte, hm, Nat.not_lt.mpr ha, hp]

end

theorem byte_toNat (n : Nat) : (byte n).toNat = n % 256 := BitVec.toNat_ofNat n 8

theorem foldl_add_toNat (bs : List Byte) (x : Byte) :
    (bs.foldl (· + ·) x).toNat = (x.toNat + (bs.map BitVec.toNat).sum) % 256 := by
  induction bs generalizing x with
  | nil => simp [Nat.mod_eq_of_lt x.isLt]
  | cons b bs ih =>
    rw [List.foldl_cons, ih, List.map_cons, List.sum_cons, BitVec.toNat_add]
    omega

/-- The first seven bytes of the mark value (R107). -/
def markFields (serial : Serial) (index : Nat) (last : Bool) (side : Side) : List Byte :=
  [byte 0x5A, byte (serial.toNat / 256 / 256 / 256), byte (serial.toNat / 256 / 256), byte (serial.toNat / 256),
    byte serial.toNat, byte (128 * flag last + 64 * sideCode side + index / 256 % 16), byte (index % 256)]

theorem markValue_eq (serial : Serial) (index : Nat) (last : Bool) (side : Side) :
    markValue serial index last side =
      markFields serial index last side ++ [(markFields serial index last side).foldl (· + ·) 0] := rfl

/-- The byte of flags keeps both flags and index bits 11 to 8 (R107). -/
theorem flagByte_toNat (index : Nat) (last : Bool) (side : Side) (h : index < 4096) :
    (byte (128 * flag last + 64 * sideCode side + index / 256 % 16)).toNat =
      (if last then 128 else 0) + (if side = .back then 64 else 0) + index / 256 := by
  rw [byte_toNat]
  cases last <;> cases side <;> simp [flag, sideCode] <;> omega

/-! ### What an observer may change -/

theorem onlyObserved_trans {s t u : State} (h : s.onlyObserved t) (h' : t.onlyObserved u) : s.onlyObserved u := by
  obtain ⟨h1, h2, hrun, h4, h5, h6, h7, h8, h9, hreport, hhist, h12, h13, h14⟩ := h
  obtain ⟨k1, k2, krun, k4, k5, k6, k7, k8, k9, kreport, khist, k12, k13, k14⟩ := h'
  exact ⟨k1.trans h1, k2.trans h2, krun.trans (by rw [hrun]), k4.trans h4, k5.trans h5, k6.trans h6, k7.trans h7,
    k8.trans h8, k9.trans h9, kreport.trans (by rw [hreport]), khist.trans (by rw [hhist]), k12.trans h12, k13.trans h13,
    k14.trans h14⟩

theorem handPolicy_onlyObserved (row : PolicyRow) (o : PolicyField) (f : Forwarded) (value view : Option Nat) (s : State) :
    s.onlyObserved (handPolicy row o f value view s) := by
  have hreport : (handPolicy row o f value view s).report =
      { s.report with queue := (handPolicy row o f value view s).report.queue } := by
    apply ReportUnit.ext <;> simp
  exact ⟨by simp, by simp, by simp, by simp, by simp, by simp, by simp, by simp, by simp, hreport, by simp, by simp,
    by simp, by simp⟩

theorem offer_onlyObserved (item : HitItem) (s : State) : s.onlyObserved (offer item s) := by
  have hrun : (offer item s).run = { s.run with hold := (offer item s).run.hold } := by
    apply RunUnit.ext <;> simp
  have hreport : (offer item s).report = { s.report with queue := (offer item s).report.queue } := by
    apply ReportUnit.ext <;> simp
  have hhist : (offer item s).history = { s.history with frozen := (offer item s).history.frozen } := by
    apply HistoryUnit.ext <;> simp
  exact ⟨by simp, by simp, hrun, by simp, by simp, by simp, by simp, by simp, by simp, hreport, hhist, by simp, by simp,
    by simp⟩

/-- What an offer adds to the outputs is a pulse on WOUT (R170). -/
theorem mem_pulseWout_out {o : Output} {s : State} (h : o ∈ (pulseWout s).out) : o ∈ s.out ∨ o = .wout := by
  unfold pulseWout at h
  split at h
  · exact .inl h
  · simpa using h

theorem mem_fireAction_out {o : Output} {a : WatchAction} {s : State} (h : o ∈ (fireAction a s).out) :
    o ∈ s.out ∨ o = .wout := by
  cases a with
  | pulse => exact mem_pulseWout_out h
  | _ => exact .inl h

theorem fire_out (u : UnitId) (p : WatchProgram) (item : HitItem) (s : State) :
    (fire u p item s).out = (fireAction p.action s).out := by
  simp only [fire]
  split <;> simp

theorem mem_countMatch_out {o : Output} {u : UnitId} {item : HitItem} {s : State}
    (h : o ∈ (countMatch u item s).out) : o ∈ s.out ∨ o = .wout := by
  rcases countMatch_cases u item s with ⟨-, he⟩ | ⟨p, -, ⟨-, he⟩ | ⟨-, he⟩⟩
  · exact .inl (he ▸ h)
  · rw [he] at h
    exact .inl (by simpa using h)
  · rw [he, fire_out] at h
    exact mem_fireAction_out h

theorem mem_offer_out {o : Output} {item : HitItem} {s : State} (h : o ∈ (offer item s).out) :
    o ∈ s.out ∨ o = .wout := by
  have hfirst (b : Bool) (t : State) (h : o ∈ (if b then countMatch .w0 item t else t).out) : o ∈ t.out ∨ o = .wout := by
    cases b with
    | true => exact mem_countMatch_out h
    | false => exact .inl h
  simp only [offer] at h
  split at h
  · rcases mem_countMatch_out h with h | h
    · exact hfirst _ s h
    · exact .inr h
  · exact hfirst _ s h

/-! ### Judging writes -/

theorem hitsLock_iff (s : State) (a : Access) :
    s.hitsLock a = true ↔ ∃ k ∈ s.pass.locks, touches a.addr a.len k.base k.len := by
  simp [State.hitsLock, overlaps_iff]

theorem hitsReport_iff (s : State) (a : Access) :
    s.hitsReport a = true ↔
      touches a.addr a.len s.cfg.reportBase (32 * s.cfg.reportSlots) ∨ touches a.addr a.len s.cfg.controlBase 8 := by
  simp [State.hitsReport, overlaps_iff]

theorem hitsInflight_iff (s : State) (a : Access) :
    s.hitsInflight a = true ↔
      ∃ i, s.fetch.inHand = some i ∧ touches a.addr a.len (s.cfg.orderBase + 64 * i) 64 := by
  cases h : s.fetch.inHand <;> simp [State.hitsInflight, h, overlaps_iff]

/-- The first row that a write overlaps judges it (R133 to R136). -/
theorem judge_of_row {s : State} {a : Access} {cls : InitClass} {row : Option PolicyRow} {o : PolicyOutcome}
    (hs : s.run.state ≠ .unset)
    (h : s.hitsLock a = true ∧ row = some .lockedRaster ∧ o = s.cfg.lockedRaster.cell cls ∨
      ¬s.hitsLock a = true ∧ s.hitsReport a = true ∧ row = some .reportArea ∧ o = s.cfg.reportArea.cell cls ∨
      ¬s.hitsLock a = true ∧ ¬s.hitsReport a = true ∧ s.hitsInflight a = true ∧ row = some .orderInflight ∧
        o = s.cfg.orderInflight.cell cls ∨
      ¬s.hitsLock a = true ∧ ¬s.hitsReport a = true ∧ ¬s.hitsInflight a = true ∧ row = none ∧ o = .pass) :
    s.judge a cls = (row, o) ∧ (row = none → o = .pass) := by
  have hset : s.isSet = true := by simpa [State.isSet] using hs
  rcases h with ⟨hl, rfl, rfl⟩ | ⟨hl, hr, rfl, rfl⟩ | ⟨hl, hr, hi, rfl, rfl⟩ | ⟨hl, hr, hi, rfl, rfl⟩
  · simp [State.judge, hset, hl]
  · simp [State.judge, hset, hl, hr]
  · simp [State.judge, hset, hl, hr, hi]
  · simp [State.judge, hset, hl, hr, hi]

theorem judge_of_unset {s : State} (a : Access) (cls : InitClass) (hs : s.run.state = .unset) :
    s.judge a cls = (none, .pass) := by
  simp [State.judge, State.isSet, hs]

/-! ### Taking an access -/

theorem offerAccess_handPolicy (a : Access) (o : PolicyOutcome) (row : PolicyRow) (p : PolicyField) (f : Forwarded)
    (value view : Option Nat) (s : State) :
    offerAccess a o (handPolicy row p f value view s) =
      offer
        (.bus
          { addr := a.addr, len := a.len, write := a.write, tag := a.tag, cls := s.classOf a.tag, outcome := o })
        (handPolicy row p f value view s) := by
  simp [offerAccess, State.classOf]

theorem forward_offer (f : Forwarded) (item : HitItem) (s : State) :
    forward f (offer item s) = { offer item s with pass := { s.pass with fwd := s.pass.fwd ++ [f] } } := by
  simp [forward]

theorem takeAccess_of_leaves {a : Access} (s : State) (h : 64 < a.addr % 64 + a.len) :
    takeAccess a s = emit (.busDone a.tag false []) (offerAccess a (s.crossingOutcome a) s) :=
  if_pos (by simpa [Access.leavesBlock] using h)

/-- A write within its block is judged, recorded, offered, and passed or completed (R131, R137, R138). -/
theorem takeAccess_of_judged {a : Access} {s : State} {row : Option PolicyRow} {o : PolicyOutcome}
    (hb : a.addr % 64 + a.len ≤ 64) (hw : a.write = true) (hj : s.judge a (s.classOf a.tag) = (row, o)) :
    takeAccess a s =
      portOutcome o { access := a, cls := s.classOf a.tag }
        (offerAccess a o (recordPolicy row o { access := a, cls := s.classOf a.tag } s)) := by
  have hl : a.leavesBlock = false := by simpa [Access.leavesBlock] using hb
  simp [takeAccess, hl, hw, hj]

theorem takeAccess_of_read {a : Access} (s : State) (hb : a.addr % 64 + a.len ≤ 64) (hw : a.write = false) :
    takeAccess a s = forward { access := a, cls := s.classOf a.tag } (offerAccess a .pass s) := by
  have hl : a.leavesBlock = false := by simpa [Access.leavesBlock] using hb
  simp [takeAccess, hl, hw, recordPolicy, portOutcome]

theorem crossingOutcome_of_unset {s : State} (a : Access) (hs : s.run.state = .unset) : s.crossingOutcome a = .pass := by
  simp [State.crossingOutcome, State.isSet, hs]

section
variable {s : State} (hroom : s.pass.fwd.length < 8)
include hroom

theorem exec_boardBusWrite_of_room (addr : Addr) (data : List Byte) (tag : BitVec 3) :
    exec (.boardBusWrite addr data tag) s = .next (takeAccess (writeAccess addr data tag) (begin s)) :=
  congrArg _ (if_pos (decide_eq_true hroom))

theorem exec_boardBusRead_of_room (addr : Addr) (len : Nat) (tag : BitVec 3) :
    exec (.boardBusRead addr len tag) s = .next (takeAccess (readAccess addr len tag) (begin s)) :=
  congrArg _ (if_pos (decide_eq_true hroom))

end

theorem atPort_of_full {s : State} (a : Access) (h : 8 ≤ s.pass.fwd.length) :
    atPort a s = { s with out := [.busWaits a.tag] } :=
  if_neg (by simpa [State.fwdRoom] using h)

end Sys2Proof.Machine

open Sys2Proof Sys2Proof.Machine

/-- Settles O24: an offset in the mark area has one mark position, any other has none. -/
theorem sheetMark : Obligations.SheetMark := by
  constructor
  · intro lines c m addr data i hm hlen hstride hbase hi
    have hget : data[i]? = some data[i] := List.getElem?_eq_getElem hi
    refine ⟨substitute_length .., fun k j hk hj ho => ?_, fun hout => ?_⟩
    · have hb := markByte_of_in hm (show c.base ≤ addr + i by omega) data[i] (ho ▸ markPosition_of_in hstride hk hj)
      rw [substitute_getElem?, hget, Option.map_some, hb, List.getElem?_eq_getElem (by omega),
        List.getD_eq_getElem _ _ (by omega)]
    · have hb := markByte_of_out hm (show c.base ≤ addr + i by omega) data[i] (markPosition_of_out hout)
      rw [substitute_getElem?, hget, Option.map_some, hb]
  · intro serial index last side hi v
    refine ⟨rfl, rfl, fun k hk => ?_, ?_, ?_, ?_⟩
    · have hb (n : Nat) : (byte n).toNat = n % 256 := byte_toNat n
      interval_cases k <;> simp [v, markValue_eq, markFields, hb, Nat.div_div_eq_div_mul]
    · exact congrArg some (flagByte_toNat index last side hi)
    · exact congrArg some ((byte_toNat _).trans (Nat.mod_mod ..))
    · exact congrArg some ((foldl_add_toNat (markFields serial index last side) 0).trans
        (by simp [v, markValue_eq, markFields]))

/-- Settles O15: the rows are judged in their order; a pass joins the queue, and a drop or a refusal is recorded ahead of
its offer. -/
theorem busWriteJudged : Obligations.BusWriteJudged := by
  intro s addr data tag row o hroom hblock hs a f locked report inflight hrow fresh seen refused
  have ⟨hj, hpass⟩ : s.judge a (s.classOf tag) = (row, o) ∧ (row = none → o = .pass) :=
    judge_of_row hs (by simpa only [hitsLock_iff, hitsReport_iff, hitsInflight_iff] using hrow)
  have hexec := (exec_boardBusWrite_of_room hroom addr data tag).trans
    (congrArg _ (takeAccess_of_judged (s := fresh) hblock rfl hj))
  have hseen (r : PolicyRow) (p : PolicyField) : s.onlyObserved (refused r p) :=
    onlyObserved_trans (handPolicy_onlyObserved r p f none none fresh) (offer_onlyObserved _ _)
  have hport (r : PolicyRow) (p : PolicyField) : (refused r p).pass = s.pass := by simp [refused, seen, fresh]
  have hdone (r : PolicyRow) (p : PolicyField) (o : PolicyOutcome) (ok : Bool) :
      emit (.busDone tag ok []) (offerAccess a o (handPolicy r p f none none fresh)) =
        { offer (.bus { addr := a.addr, len := a.len, write := true, tag := tag, cls := s.classOf tag, outcome := o })
            (handPolicy r p f none none fresh) with
          out :=
            (offer (.bus { addr := a.addr, len := a.len, write := true, tag := tag, cls := s.classOf tag, outcome := o })
              (handPolicy r p f none none fresh)).out ++ [.busDone tag ok []] } :=
    congrArg (emit (.busDone tag ok [])) (offerAccess_handPolicy a o r p f none none fresh)
  cases o with
  | pass =>
    have hnone : recordPolicy row .pass f fresh = fresh := by cases row <;> rfl
    have heq : forward f (offerAccess a .pass (recordPolicy row .pass f fresh)) =
        { seen fresh with pass := { s.pass with fwd := s.pass.fwd ++ [f] } } := by
      rw [hnone]
      exact forward_offer f _ fresh
    exact ⟨_, hexec.trans (congrArg _ heq), offer_onlyObserved _ fresh,
      rfl, fun x hx => (mem_offer_out hx).resolve_left (List.not_mem_nil)⟩
  | drop =>
    obtain ⟨r, rfl⟩ : ∃ r, row = some r := Option.ne_none_iff_exists'.mp fun h => by simpa using hpass h
    exact ⟨_, hexec.trans (congrArg _ (hdone r .drop .drop true)), hseen r .drop, r, rfl, hport r .drop, rfl⟩
  | error =>
    obtain ⟨r, rfl⟩ : ∃ r, row = some r := Option.ne_none_iff_exists'.mp fun h => by simpa using hpass h
    exact ⟨_, hexec.trans (congrArg _ (hdone r .error .error false)), hseen r .error, r, rfl, hport r .error, rfl⟩

/-- Settles O16: an access is taken with room, and then leaves its block, reads, or is written unjudged in UNSET. -/
theorem busAccessTaken : Obligations.BusAccessTaken := by
  intro s addr data len tag seen joins failed
  have hseen (write : Bool) (n : Nat) (o : PolicyOutcome) : s.onlyObserved (seen write n o) := offer_onlyObserved _ _
  have hport (write : Bool) (n : Nat) (o : PolicyOutcome) : (failed write n o).pass = s.pass := by
    simp [failed, seen]
  refine ⟨fun hroom hblock => ⟨?_, hseen false len .pass, fun o ho => ?_⟩, fun hfull => ⟨?_, ?_⟩,
    fun hroom hcross => ?_, fun hroom hcross => ?_, fun hroom hblock hs => ⟨?_, hseen true data.length .pass⟩⟩
  · exact (exec_boardBusRead_of_room hroom addr len tag).trans
      (congrArg _ ((takeAccess_of_read _ hblock rfl).trans (forward_offer _ _ _)))
  · exact (mem_offer_out ho).resolve_left List.not_mem_nil
  · exact congrArg _ (atPort_of_full (readAccess addr len tag) hfull)
  · exact congrArg _ (atPort_of_full (writeAccess addr data tag) hfull)
  · exact ⟨s.crossingOutcome (readAccess addr len tag), crossingOutcome_of_unset _,
      (exec_boardBusRead_of_room hroom addr len tag).trans (congrArg _ (takeAccess_of_leaves _ hcross)),
      hseen false len _, hport false len _⟩
  · exact ⟨s.crossingOutcome (writeAccess addr data tag), crossingOutcome_of_unset _,
      (exec_boardBusWrite_of_room hroom addr data tag).trans (congrArg _ (takeAccess_of_leaves _ hcross)),
      hseen true data.length _, hport true data.length _⟩
  · exact (exec_boardBusWrite_of_room hroom addr data tag).trans
      (congrArg _ ((takeAccess_of_judged (a := writeAccess addr data tag) (s := begin s) hblock rfl
        (judge_of_unset _ _ hs)).trans (forward_offer _ _ (begin s))))

end

section
/-! SUPPORT. The order fetcher (R2, R5, R7, R18): the read of a slot, the finishing of a slot, and control orders with the
work of their owning blocks. -/

namespace Sys2Proof.Machine

/-! ### The slot read -/

theorem defers_iff (s : State) :
    s.defers = true ↔
      64 ≤ s.fetch.schedule.length ∨ ∃ x ∈ s.heldSheets, 4194304 ≤ (s.fetch.counter - x.seq).toNat := by
  simp [State.defers, State.seqExhausted]

theorem not_defers_iff (s : State) :
    s.defers = false ↔
      s.fetch.schedule.length ≤ 63 ∧ ∀ x ∈ s.heldSheets, (s.fetch.counter - x.seq).toNat < 4194304 := by
  rw [← Bool.not_eq_true, defers_iff]
  push Not
  exact and_congr_left fun _ => by omega

theorem deferralAllows_iff (s : State) :
    s.deferralAllows = true ↔
      (s.fetch.deferred = true →
        s.fetch.schedule.length ≤ 63 ∧ ∀ x ∈ s.heldSheets, (s.fetch.counter - x.seq).toNat < 4194304) := by
  rw [← not_defers_iff]
  cases hd : s.fetch.deferred <;> simp [State.deferralAllows, hd]

theorem occupancy_eq (s : State) : s.occupancy = s.report.queue.length + if s.history.dump = none then 0 else 1 := by
  cases h : s.history.dump <;> simp [State.occupancy, h]

/-- The conditions of R2, as they stand there. -/
theorem mayFetch_iff (s : State) :
    s.mayFetch = true ↔
      s.run.state ≠ .unset ∧ s.fetch.next ∈ s.fetch.posted ∧ s.fetch.inHand = none ∧
        s.report.queue.length + (if s.history.dump = none then 0 else 1) ≤ 5 ∧ s.setup.fetch = .idle ∧
        (s.fetch.deferred = true →
          s.fetch.schedule.length ≤ 63 ∧ ∀ x ∈ s.heldSheets, (s.fetch.counter - x.seq).toNat < 4194304) ∧
        s.pass.own.length < 16 := by
  rw [← deferralAllows_iff, ← occupancy_eq]
  simp [State.mayFetch, State.isSet, State.throttleOpen, State.ownRoom, and_assoc]

/-! ### Finishing a slot -/

theorem handOption_eq (r : Option Record) (s : State) :
    handOption r s =
      { s with
        report :=
          { s.report with queue := s.report.queue ++ r.toList.map fun r => { record := r, fixed := false } } } := by
  cases r <;> simp [handOption, handRecord]

/-- A slot is finished as R5 says, at once or when the own-access FIFO has room. -/
theorem finishSlot_finishes (f : Finish) (s : State) : State.finishes f s (finishSlot f s) := by
  unfold State.finishes
  rcases finishSlot_cases f s with ⟨hroom, he⟩ | ⟨hfull, he⟩
  · rw [if_pos hroom, he]
    refine ⟨_, rfl, ?_⟩
    simp only [finishNow, handOption_eq]
    rfl
  · rw [if_neg (by omega), he]

theorem slotIndex_congr {s t : State} (h : t.fetch.inHand = s.fetch.inHand) : t.slotIndex = s.slotIndex := by
  rw [State.slotIndex, State.slotIndex, h]

theorem getD_eq_byte (slot : List Byte) : slot.getD 0 0 = byte (byteAt slot 0) := by
  simp [byte, byteAt]

theorem rejectOrder_finishes {s t : State} (r : RejectReason) (slot : List Byte)
    (h : t.fetch.inHand = s.fetch.inHand) : State.finishes (rejectFinish s slot r) t (rejectOrder r slot t) := by
  have hf : rejectOrder r slot t = finishSlot (rejectFinish s slot r) t := by
    rw [rejectOrder, slotIndex_congr h, getD_eq_byte]
    rfl
  exact hf ▸ finishSlot_finishes _ t

theorem answerControl_finishes {s t : State} {k : Nat} (r : ControlResult) {slot : List Byte}
    (h : t.fetch.inHand = s.fetch.inHand) (hk : byteAt slot 0 = k) :
    State.finishes (controlFinish s k r) t (answerControl slot r t) := by
  have hf : answerControl slot r t = finishSlot (controlFinish s k r) t := by
    rw [answerControl, slotIndex_congr h, getD_eq_byte, hk]
    rfl
  exact hf ▸ finishSlot_finishes _ t

/-! ### Orders that have returned -/

theorem kindEnabled_iff (c : Setup) (k : Nat) :
    kindEnabled c k = true ↔ k = 3 ∨ k = 5 ∨ c.kindEnable.getLsbD k = true := by
  simp [kindEnabled, bitOf_eq_testBit, BitVec.testBit_toNat, or_assoc]

theorem kindEnabled_eq_false {c : Setup} {k : Nat} (h3 : k ≠ 3) (h5 : k ≠ 5) (h : c.kindEnable.getLsbD k = false) :
    kindEnabled c k = false := by
  rw [← Bool.not_eq_true, kindEnabled_iff]
  simp [h3, h5, h]

/-- A stretch of bytes with a non-zero one is not zero. -/
theorem zeroBetween_eq_false {slot : List Byte} {lo hi i : Nat} (hlo : lo ≤ i) (hhi : i < hi) (h : byteAt slot i ≠ 0) :
    zeroBetween slot lo hi = false := by
  rw [← Bool.not_eq_true, zeroBetween_iff]
  exact fun hz => h (hz i hlo hhi)

section
variable {s : State} {slot : List Byte} {k : Nat} (hret : s.slotReturns = true) (hpost : byteAt slot 56 = 1)
  (hk : byteAt slot 0 = k)
include hret hpost hk

theorem onOrder_of_returns (body : State → State) :
    onOrder k slot body s = settle (body (freePort (begin s))) :=
  if_pos (by simp [hret, slotPosted, hpost, slotKind, hk])

/-- A control order that is enabled and well formed is answered with its owning block's result, behind run-state control's
decisions (R18). -/
theorem control_answers {c : Instr} {body : State → State} {wf : Bool} {work : State → State × ControlResult}
    {r : ControlResult} {w : State} (hexec : exec c s = .next (onOrder k slot body s))
    (hbody : body (freePort (begin s)) = controlOrder wf work slot (freePort (begin s)))
    (hen : kindEnabled s.cfg k = true) (hwf : wf = true) (hwork : work (freePort (begin s)) = (w, r))
    (hin : w.fetch.inHand = s.fetch.inHand) :
    ∃ d, exec c s = .next (settle d) ∧ State.finishes (controlFinish s k r) (decideRun w) d := by
  have hcontrol : controlOrder wf work slot (freePort (begin s)) = answerControl slot r (decideRun w) := by
    have hen' : kindEnabled (freePort (begin s)).cfg (slotKind slot) = true := (congrArg _ hk).trans hen
    simp [controlOrder, hen', hwf, hwork]
  refine ⟨answerControl slot r (decideRun w), ?_, answerControl_finishes r (by simp [hin]) hk⟩
  rw [hexec, onOrder_of_returns hret hpost hk, hbody, hcontrol]

/-- A control order of a disabled kind is rejected with KIND_DISABLED (R7, R8). -/
theorem control_disabled {c : Instr} {body : State → State} {wf : Bool} {work : State → State × ControlResult}
    (hexec : exec c s = .next (onOrder k slot body s))
    (hbody : body (freePort (begin s)) = controlOrder wf work slot (freePort (begin s)))
    (hen : kindEnabled s.cfg k = false) :
    ∃ d, exec c s = .next (settle d) ∧ State.finishes (rejectFinish s slot .kindDisabled) (freePort (begin s)) d := by
  have hcontrol : controlOrder wf work slot (freePort (begin s)) = rejectOrder .kindDisabled slot (freePort (begin s)) := by
    have hen' : kindEnabled (freePort (begin s)).cfg (slotKind slot) = false := (congrArg _ hk).trans hen
    simp [controlOrder, hen']
  refine ⟨rejectOrder .kindDisabled slot (freePort (begin s)), ?_, rejectOrder_finishes _ _ rfl⟩
  rw [hexec, onOrder_of_returns hret hpost hk, hbody, hcontrol]

/-- An enabled control order that is not well formed is rejected with FIELD (R7). -/
theorem control_illFormed {c : Instr} {body : State → State} {wf : Bool} {work : State → State × ControlResult}
    (hexec : exec c s = .next (onOrder k slot body s))
    (hbody : body (freePort (begin s)) = controlOrder wf work slot (freePort (begin s)))
    (hen : kindEnabled s.cfg k = true) (hwf : wf = false) :
    ∃ d, exec c s = .next (settle d) ∧ State.finishes (rejectFinish s slot .field) (freePort (begin s)) d := by
  have hcontrol : controlOrder wf work slot (freePort (begin s)) = rejectOrder .field slot (freePort (begin s)) := by
    have hen' : kindEnabled (freePort (begin s)).cfg (slotKind slot) = true := (congrArg _ hk).trans hen
    simp [controlOrder, hen', hwf]
  refine ⟨rejectOrder .field slot (freePort (begin s)), ?_, rejectOrder_finishes _ _ rfl⟩
  rw [hexec, onOrder_of_returns hret hpost hk, hbody, hcontrol]

end

theorem kindKnown_eq_false {k : Nat} (h : k < 1 ∨ 9 < k) : kindKnown k = false := by
  rw [← Bool.not_eq_true, kindKnown, inRange, Bool.and_eq_true, decide_eq_true_eq, decide_eq_true_eq]
  omega

theorem cancelReservedOk_eq_false {slot : List Byte} {i : Nat} (hlo : 1 ≤ i) (hhi : i < 56) (hpos : i < 4 ∨ 8 ≤ i)
    (h : byteAt slot i ≠ 0) : cancelReservedOk slot = false := by
  rw [cancelReservedOk, Bool.and_eq_false_iff]
  exact hpos.imp (fun h4 => zeroBetween_eq_false hlo h4 h) (fun h8 => zeroBetween_eq_false h8 hhi h)

theorem tallyReservedOk_eq_false {slot : List Byte} {i : Nat} (hlo : 1 ≤ i) (hhi : i < 56) (hpos : i < 8 ∨ 12 ≤ i)
    (h : byteAt slot i ≠ 0) : tallyReservedOk slot = false := by
  rw [tallyReservedOk, Bool.and_eq_false_iff]
  exact hpos.imp (fun h8 => zeroBetween_eq_false hlo h8 h) (fun h12 => zeroBetween_eq_false h12 hhi h)

/-! ### The owning blocks' work -/

theorem bareReservedOk_of_zero {slot : List Byte} (h : ∀ i, 1 ≤ i → i < 56 → byteAt slot i = 0) :
    bareReservedOk slot = true :=
  (zeroBetween_iff slot 1 56).mpr h

theorem stationClear_of_line {s : State} {st : Station} {l : Fin 16} (hl : (s.cfg.station st).line = l.val) :
    s.stationClear st = true ↔
      ((s.cfg.station st).present = true → s.expect.lines[l].stable = false ∧ s.expect.lines[l].change = none) := by
  obtain ⟨n, hn⟩ := l
  simp only at hl
  subst hl
  cases hp : (s.cfg.station st).present <;> simp [State.stationClear, hp, hn]

/-- The path is clear exactly when no present station's line is stable high or has a pending change (R49). -/
theorem all_stationClear_iff (s : State) :
    allStations.all s.stationClear = true ↔
      ¬∃ (st : Station) (l : Fin 16), (s.cfg.station st).present = true ∧ (s.cfg.station st).line = l.val ∧
        (s.expect.lines[l].stable = true ∨ s.expect.lines[l].change ≠ none) := by
  have hmem (st : Station) : st ∈ allStations := by cases st <;> decide
  rw [List.all_eq_true]
  constructor
  · rintro h ⟨st, l, hp, hl, hocc⟩
    obtain ⟨hst, hch⟩ := (stationClear_of_line hl).mp (h st (hmem st)) hp
    exact hocc.elim (Bool.eq_false_iff.mp hst) (fun h => h hch)
  · intro h st _
    by_cases hl : (s.cfg.station st).line < 16
    · refine (stationClear_of_line (l := ⟨_, hl⟩) rfl).mpr fun hp => ?_
      by_contra hocc
      rw [not_and_or, Bool.not_eq_false] at hocc
      exact h ⟨st, ⟨_, hl⟩, hp, rfl, hocc⟩
    · simp [State.stationClear, hl]

theorem pieceKnown_iff (s : State) (p : PieceId) :
    s.pieceKnown p = true ↔ (∃ x ∈ s.heldSheets, x.piece = p) ∨ ∃ r, s.track.piece = some r ∧ r.piece = p := by
  cases h : s.track.piece <;> simp [State.pieceKnown, State.recordNames, h]

open Classical in
/-- An answered CANCEL closes an open piece of its id (R19). -/
theorem closeOpen_eq (p : PieceId) (s : State) (o : Option OpenPiece) (h : s.fetch.openPiece = o) :
    closeOpen p s =
      if ∃ x, o = some x ∧ x.piece = p then { s with fetch := { s.fetch with openPiece := none } } else s := by
  subst h
  cases ho : s.fetch.openPiece with
  | none => simp [closeOpen, ho]
  | some x => by_cases hx : x.piece = p <;> simp [closeOpen, ho, hx]

theorem watchUnitOf_of_code {slot : List Byte} {u : UnitId} (h : byteAt slot 1 = unitCode u) : watchUnitOf slot = u := by
  cases u <;> simp [watchUnitOf, h, unitCode]

theorem clearedWork_of_occupied {s : State} (hs : s.run.state = .stopped) (hc : s.pins.cover = true)
    (hocc : ¬allStations.all s.stationClear = true) : clearedWork s = (s, .pathNotClear) := by
  simp only [Bool.not_eq_true] at hocc
  simp [clearedWork, hs, hc, hocc]

theorem clearedWork_of_clear {s : State} (hs : s.run.state = .stopped) (hc : s.pins.cover = true)
    (hclear : allStations.all s.stationClear = true) :
    clearedWork s =
      (appendHist .cleared none none none none s.time.pos (changeRun .idle none (leaveEstimate (clearPath s))), .ok) := by
  simp [clearedWork, hs, hc, hclear, leaveEstimate, clearPath]

section
variable {s : State} {slot : List Byte} {u : UnitId} (hu : watchUnitOf slot = u)
include hu

theorem watchWork_of_disable (h0 : byteAt slot 2 = 0) :
    watchWork slot s = (setUnit u { s.watch.unit u with program := none, state := .disarmed } s, .ok) := by
  simp [watchWork, watchDisables, h0, hu, WatchUnit.disabled]

theorem watchWork_of_armed (h0 : byteAt slot 2 ≠ 0)
    (hs : (s.watch.unit u).state = .armed ∨ (s.watch.unit u).state = .waiting) :
    watchWork slot s = (s, .unitArmed) := by
  simp [watchWork, watchDisables, h0, hu, hs]

theorem watchWork_of_free (h0 : byteAt slot 2 ≠ 0)
    (hs : (s.watch.unit u).state = .disarmed ∨ (s.watch.unit u).state = .spent) :
    watchWork slot s =
      (setUnit u
        { s.watch.unit u with program := some (parseWatch slot), remaining := leAt slot 6 2
                              state := if byteAt slot 4 = 1 then .waiting else .armed } s, .ok) := by
  have hfree : ¬((s.watch.unit u).state = .armed ∨ (s.watch.unit u).state = .waiting) := by
    rcases hs with hs | hs <;> simp [hs]
  simp [watchWork, watchDisables, h0, hu, hfree, WatchUnit.programmed, parseWatch]

end

theorem tallyWork_of_path {serial : Serial} {s : State} (ht : s.cfg.tallyEnable = true) (hp : s.track.path ≠ []) :
    tallyWork serial s = (s, .busy) := by
  simp [tallyWork, ht, hp]

theorem tallyWork_of_clear {serial : Serial} {s : State} (ht : s.cfg.tallyEnable = true) (hp : s.track.path = []) :
    tallyWork serial s = ({ s with tally := { s.tally with nextSerial := serial, valid := true } }, .ok) := by
  simp [tallyWork, ht, hp]

theorem tallyWork_of_disabled {serial : Serial} {s : State} (ht : s.cfg.tallyEnable = false) :
    tallyWork serial s = (s, .tallyDisabled) := by
  simp [tallyWork, ht]

end Sys2Proof.Machine

open Sys2Proof Sys2Proof.Machine

/-- Settles O26: the command's own condition is R2's list. -/
theorem slotReadIssues : Obligations.SlotReadIssues := by
  intro s may
  exact ⟨fun h => congrArg _ (if_pos ((mayFetch_iff s).mpr h)),
    fun h => congrArg _ (if_neg fun hm => h ((mayFetch_iff s).mp hm))⟩

/-- Settles O32: each latch order's work, behind which run-state control decides and the order is answered. -/
theorem latchOrders : Obligations.LatchOrders := by
  intro s slot hret hpost hzero free answers
  have hwf := bareReservedOk_of_zero hzero
  refine ⟨fun hk hen => ?_, fun hk hen => ?_, fun hk => ?_⟩
  · exact control_answers hret hpost hk rfl rfl ((kindEnabled_iff ..).mpr (.inr (.inr hen))) hwf rfl rfl
  · intro latched
    refine control_answers hret hpost hk rfl rfl ((kindEnabled_iff ..).mpr (.inr (.inr hen))) hwf rfl ?_
    split <;> simp [latched, free, freePort, begin]
  · intro latched
    refine control_answers hret hpost hk rfl rfl ((kindEnabled_iff ..).mpr (.inl rfl)) hwf rfl ?_
    split <;> simp [latched, free, freePort, begin]

/-- Settles O33: the three refusals and the acceptance of CLEARED. -/
theorem clearedJudged : Obligations.ClearedJudged := by
  intro s slot hret hpost hk hzero free occupied answers
  have answer {r : ControlResult} {w : State} (hwork : clearedWork free = (w, r))
      (hin : w.fetch.inHand = s.fetch.inHand) : answers r w :=
    control_answers hret hpost hk rfl rfl ((kindEnabled_iff ..).mpr (.inr (.inl rfl))) (bareReservedOk_of_zero hzero)
      hwork hin
  refine ⟨fun hs => ?_, fun hs hc => ?_, fun hs hocc => ?_, fun hs hc hocc => ?_⟩
  · exact answer (if_pos hs) rfl
  · exact answer ((if_neg (not_not.mpr hs)).trans (if_pos (by simp [free, freePort, begin, hc]))) rfl
  · have hall : ¬allStations.all free.stationClear = true := fun h => (all_stationClear_iff free).mp h hocc
    cases hc : s.pins.cover with
    | false => exact answer ((if_neg (not_not.mpr hs)).trans (if_pos (by simp [free, freePort, begin, hc]))) rfl
    | true => exact answer (clearedWork_of_occupied hs hc hall) rfl
  · exact answer (clearedWork_of_clear hs hc ((all_stationClear_iff free).mpr hocc)) (by simp [free])

/-- Settles O34: the piece is known or not, and an open piece of its id is closed either way. -/
theorem cancelAnswered : Obligations.CancelAnswered := by
  intro s slot hret hpost hk hen hzero p known closed answers
  have hwf : cancelReservedOk slot = true := by
    simp only [cancelReservedOk, Bool.and_eq_true, zeroBetween_iff]
    exact ⟨fun i h1 h2 => hzero i h1 (by omega) (by omega), fun i h1 h2 => hzero i (by omega) h2 (by omega)⟩
  have answer {r : ControlResult} {w : State} (hwork : cancelWork p (freePort (begin s)) = (w, r))
      (hin : w.fetch.inHand = s.fetch.inHand) : answers r w :=
    control_answers hret hpost hk rfl rfl ((kindEnabled_iff ..).mpr (.inr (.inr hen))) hwf hwork hin
  have hclosed (t : State) : (closed t).fetch.inHand = t.fetch.inHand := by
    simp only [closed]
    split <;> rfl
  refine ⟨fun hno => ?_, fun hyes => ?_⟩
  · exact answer ((if_neg fun h => hno ((pieceKnown_iff _ p).mp h)).trans
      (congrArg (·, ControlResult.noPiece) (closeOpen_eq p _ _ rfl))) (hclosed _)
  · exact answer ((if_pos ((pieceKnown_iff _ p).mpr hyes)).trans
      (congrArg (·, ControlResult.ok) (closeOpen_eq p _ s.fetch.openPiece (by simp)))) ((hclosed _).trans (by simp))

/-- Settles O36: DISABLE, a refused program, and a program taken. -/
theorem watchOrderAnswered : Obligations.WatchOrderAnswered := by
  intro s slot u hret hpost hk hen hwf hu free w p answers
  have hof := watchUnitOf_of_code hu
  have answer {r : ControlResult} {x : State} (hwork : watchWork slot free = (x, r))
      (hin : x.fetch.inHand = s.fetch.inHand) : answers r x :=
    control_answers hret hpost hk rfl rfl ((kindEnabled_iff ..).mpr (.inr (.inr hen))) hwf hwork hin
  refine ⟨fun h0 => ?_, fun h0 hs => ?_, fun h0 hs => ?_⟩
  · exact answer (watchWork_of_disable hof h0) (by simp [free])
  · exact answer (watchWork_of_armed hof h0 hs) rfl
  · exact answer (watchWork_of_free hof h0 hs) (by simp [free])

/-- Settles O38: the enable, the path table, and the tally's two fields. -/
theorem tallyOrderAnswered : Obligations.TallyOrderAnswered := by
  intro s slot hret hpost hk hen hzero free answers
  have hwf : tallyReservedOk slot = true := by
    simp only [tallyReservedOk, Bool.and_eq_true, zeroBetween_iff]
    exact ⟨fun i h1 h2 => hzero i h1 (by omega) (by omega), fun i h1 h2 => hzero i (by omega) h2 (by omega)⟩
  have answer {r : ControlResult} {w : State} (hwork : tallyWork (tallySerial slot) free = (w, r))
      (hin : w.fetch.inHand = s.fetch.inHand) : answers r w :=
    control_answers hret hpost hk rfl rfl ((kindEnabled_iff ..).mpr (.inr (.inr hen))) hwf hwork hin
  refine ⟨fun ht => ?_, fun ht hp => ?_, fun ht hp => ?_⟩
  · exact answer (tallyWork_of_disabled ht) rfl
  · exact answer (tallyWork_of_path ht hp) rfl
  · exact answer (tallyWork_of_clear ht hp) rfl

/-- Settles O31: an unknown kind, a disabled kind, and an order that is not well formed. -/
theorem controlOrderJudged : Obligations.ControlOrderJudged := by
  intro s slot hret hpost off on rejects
  have disabled {k : Nat} (h3 : k ≠ 3) (h5 : k ≠ 5) (h : off k) : byteAt slot 0 = k ∧ kindEnabled s.cfg k = false :=
    ⟨h.1, kindEnabled_eq_false h3 h5 h.2⟩
  have enabled {k : Nat} (h : on k) : byteAt slot 0 = k ∧ kindEnabled s.cfg k = true :=
    ⟨h.1, (kindEnabled_iff ..).mpr h.2⟩
  refine ⟨fun h => ?_, fun h => ?_, fun h => ?_, fun h => ?_, fun h => ?_, fun h => ?_, fun h => ?_,
    fun i hlo hhi hi => ⟨fun h => ?_, fun h => ?_, fun h => ?_, fun h => ?_, fun h hpos => ?_, fun h hpos => ?_⟩,
    fun h hwf => ?_, fun h hwf => ?_⟩
  · have hkind : kindKnown (slotKind slot) = false := kindKnown_eq_false h
    exact ⟨_, congrArg _ (if_pos (by simp [hret, slotPosted, hpost, hkind])), rejectOrder_finishes _ _ rfl⟩
  case refine_2 | refine_3 | refine_4 | refine_5 | refine_6 | refine_7 =>
    obtain ⟨hk, hen⟩ := disabled (by decide) (by decide) h
    exact control_disabled hret hpost hk rfl rfl hen
  case refine_8 | refine_9 | refine_10 | refine_11 =>
    obtain ⟨hk, hen⟩ := enabled h
    exact control_illFormed hret hpost hk rfl rfl hen (zeroBetween_eq_false hlo hhi hi)
  · obtain ⟨hk, hen⟩ := enabled h
    exact control_illFormed hret hpost hk rfl rfl hen (cancelReservedOk_eq_false hlo hhi hpos hi)
  · obtain ⟨hk, hen⟩ := enabled h
    exact control_illFormed hret hpost hk rfl rfl hen (tallyReservedOk_eq_false hlo hhi hpos hi)
  · obtain ⟨hk, hen⟩ := enabled h
    exact control_illFormed hret hpost hk rfl rfl hen hwf
  · obtain ⟨hk, hen⟩ := enabled h
    exact control_illFormed hret hpost hk rfl rfl hen hwf

end

section
/-! SUPPORT. The tests of a SHEET order (R7, R9, R10) as a list of tests of which the first that fails gives the reason, and
what is done with an order that passes them all (R11, R14, R15). -/

namespace Sys2Proof.Machine

/-! ### Tests in order -/

/-- The reason of the first test that fails. -/
def firstFailing : List (Bool × RejectReason) → Option RejectReason
  | [] => none
  | (b, r) :: ts => if b then firstFailing ts else some r

/-- The test decides the condition, and both name one reason. -/
def Decides (t : Bool × RejectReason) (p : Prop × RejectReason) : Prop := (t.1 = true ↔ p.1) ∧ t.2 = p.2

theorem firstFailing_eq_none_iff {ts : List (Bool × RejectReason)} {ps : List (Prop × RejectReason)}
    (h : List.Forall₂ Decides ts ps) : firstFailing ts = none ↔ ∀ p ∈ ps, p.1 := by
  induction h with
  | nil => simp [firstFailing]
  | @cons t p ts ps htp _ ih =>
    obtain ⟨b, r⟩ := t
    rw [List.forall_mem_cons, ← ih, ← htp.1]
    cases b <;> simp [firstFailing]

theorem firstFailing_of_split {before after : List (Prop × RejectReason)} {holds : Prop} {r : RejectReason}
    {ts : List (Bool × RejectReason)} (h : List.Forall₂ Decides ts (before ++ (holds, r) :: after))
    (hbefore : ∀ p ∈ before, p.1) (hfail : ¬holds) : firstFailing ts = some r := by
  induction before generalizing ts with
  | nil =>
    obtain ⟨⟨b, r'⟩, ts, ⟨hb, rfl⟩, -, rfl⟩ := List.forall₂_cons_right_iff.mp h
    have hb' : b = false := by simpa [hfail] using hb
    simp [firstFailing, hb']
  | cons p before ih =>
    obtain ⟨⟨b, r'⟩, ts, ⟨hb, -⟩, hts, rfl⟩ := List.forall₂_cons_right_iff.mp h
    rw [List.forall_mem_cons] at hbefore
    have hb' : b = true := hb.mpr hbefore.1
    simpa [firstFailing, hb'] using ih hts hbefore.2

/-! ### The tests of a SHEET order -/

/-- A raster of an order of this length: its alignment, bounds, stride, image length, distance from the controller's own
structures and mark area (R9). -/
def rasterFits (base : BitVec 4) (c : Setup) (length : Nat) (r : SideRec) : Prop :=
  r.base % 64 = 0 ∧ 64 ≤ r.len ∧ r.len ≤ 16777215 ∧ r.base + r.len ≤ 4294967296 ∧
    64 ≤ r.stride ∧ r.stride ≤ 65535 ∧ r.stride % 8 = 0 ∧ 1 ≤ r.image ∧ r.image ≤ length ∧
    (∀ q ∈ ownRegions base c, ¬touches r.base r.len q.1 q.2) ∧
    ∀ m, c.markEnable = true → r.mark = some m → m + (c.markLines - 1) * r.stride + 16 ≤ r.len

/-- The tests of a SHEET order in R7's order, each with its reason. -/
def sheetConditions (base : BitVec 4) (c : Setup) (o : Option OpenPiece) (slot : List Byte) :
    List (Prop × RejectReason) :=
  let x := parseSheet 0 slot
  let zero (first after : Nat) := ∀ i, first ≤ i → i < after → byteAt slot i = 0
  let flag (bit : Nat) := (byteAt slot 1).testBit bit = true
  [(byteAt slot 1 < 16 ∧ zero 5 6 ∧ zero 18 20 ∧ zero 52 56 ∧ (¬flag 1 → zero 36 52) ∧ (¬flag 2 → zero 32 36) ∧
      (¬flag 3 → zero 48 52), .field),
    (1000 ≤ x.length ∧ x.length ≤ 5000, .length),
    (∃ tray : Fin 4, byteAt slot 3 = tray.val + 1 ∧ (c.station (feedStation tray)).present = true, .tray),
    (byteAt slot 2 = 1 ∧ ¬flag 1 ∨ byteAt slot 2 = 2 ∧ flag 1 ∧ c.loopLength ≠ 0, .plex),
    (rasterFits base c x.length x.front ∧ ∀ b, x.back = some b → rasterFits base c x.length b, .raster),
    (byteAt slot 4 = 1 ∨ byteAt slot 4 = 2, .output),
    (1 ≤ x.index ∧ x.index ≤ 4095 ∧ (x.index = 4095 → x.last = true) ∧ (o = none → x.index = 1) ∧
      ∀ p, o = some p → x.piece = p.piece ∧ x.index = p.lastIndex + 1, .pieceOrder),
    (∀ p, o = some p → x.output = p.output, .outputMix)]

/-- The order's index is in range, and 4,095 only at the last of a piece (R10). -/
def indexOk (slot : List Byte) : Bool :=
  inRange 1 4095 (sheetIndex slot) && !(sheetIndex slot == 4095 && !sheetLast slot)

/-- The order's index and its place in the open piece (R10). -/
def pieceOrderOk (o : Option OpenPiece) (slot : List Byte) : Bool :=
  indexOk slot &&
    o.elim (decide (sheetIndex slot = 1)) fun p =>
      decide (p.piece = sheetPiece slot ∧ sheetIndex slot = p.lastIndex + 1)

/-- The same tests as the model decides them. -/
def sheetTests (base : BitVec 4) (c : Setup) (o : Option OpenPiece) (slot : List Byte) : List (Bool × RejectReason) :=
  [(sheetReservedOk slot, .field),
    (inRange 1000 5000 (sheetLength slot), .length),
    (match trayOfCode (byteAt slot 3) with | none => false | some t => c.fitted t, .tray),
    (plexOk c slot, .plex),
    (sideOk base c (sheetLength slot) (frontSide slot) &&
      (match backSide slot with | none => true | some b => sideOk base c (sheetLength slot) b), .raster),
    ((stackerOfCode (byteAt slot 4)).isSome, .output),
    (pieceOrderOk o slot, .pieceOrder),
    (o.all fun p => decide ((stackerOfCode (byteAt slot 4)).getD .a = p.output), .outputMix)]

theorem judgeSheet_eq_or (base : BitVec 4) (c : Setup) (o : Option OpenPiece) (slot : List Byte) :
    judgeSheet base c o slot =
      if sheetReservedOk slot then (sheetFieldCheck base c slot).or (pieceCheck o slot) else some .field := by
  unfold judgeSheet
  cases sheetReservedOk slot <;> cases sheetFieldCheck base c slot <;> rfl

/-- A test ahead of other checks is the first of them. -/
theorem or_of_test (b : Bool) (r : RejectReason) (x y : Option RejectReason) :
    (if !b then some r else x).or y = if b then x.or y else some r := by
  cases b <;> rfl

theorem pieceCheck_of_output {o : Option OpenPiece} {slot : List Byte} {k : Stacker}
    (hk : stackerOfCode (byteAt slot 4) = some k) :
    pieceCheck o slot =
      firstFailing [(pieceOrderOk o slot, .pieceOrder), (o.all fun p => decide (k = p.output), .outputMix)] := by
  have hrange : (!inRange 1 4095 (sheetIndex slot) || sheetIndex slot == 4095 && !sheetLast slot) = !indexOk slot := by
    rw [indexOk, Bool.not_and, Bool.not_not]
  simp only [pieceCheck, pieceOrderOk, firstFailing, hrange, hk, Option.some.injEq]
  by_cases hi : indexOk slot = true
  · cases o with
    | none => by_cases h : sheetIndex slot = 1 <;> simp [hi, h]
    | some p => by_cases h : p.piece = sheetPiece slot ∧ sheetIndex slot = p.lastIndex + 1 <;> simp [hi, h]
  · simp [hi]

/-- A SHEET order is judged by its tests in their order (R7). -/
theorem judgeSheet_eq_firstFailing (base : BitVec 4) (c : Setup) (o : Option OpenPiece) (slot : List Byte) :
    judgeSheet base c o slot = firstFailing (sheetTests base c o slot) := by
  rw [judgeSheet_eq_or, sheetFieldCheck]
  simp only [sheetTests, or_of_test, firstFailing]
  cases hk : stackerOfCode (byteAt slot 4) with
  | none => simp <;> rfl
  | some k => simp [pieceCheck_of_output hk, firstFailing] <;> rfl

theorem sideOk_iff_rasterFits (base : BitVec 4) (c : Setup) (length : Nat) (r : SideRec) :
    sideOk base c length r = true ↔ rasterFits base c length r := sideOk_iff base c length r

theorem indexOk_iff (slot : List Byte) :
    indexOk slot = true ↔
      1 ≤ sheetIndex slot ∧ sheetIndex slot ≤ 4095 ∧ (sheetIndex slot = 4095 → sheetLast slot = true) := by
  by_cases h : sheetIndex slot = 4095 <;> simp [indexOk, inRange, h]

theorem pieceOrderOk_iff (o : Option OpenPiece) (slot : List Byte) :
    pieceOrderOk o slot = true ↔
      1 ≤ sheetIndex slot ∧ sheetIndex slot ≤ 4095 ∧ (sheetIndex slot = 4095 → sheetLast slot = true) ∧
        (o = none → sheetIndex slot = 1) ∧
        ∀ p, o = some p → sheetPiece slot = p.piece ∧ sheetIndex slot = p.lastIndex + 1 := by
  rw [pieceOrderOk, Bool.and_eq_true, indexOk_iff, and_assoc, and_assoc]
  cases o with
  | none => simp
  | some p => simp [eq_comm (a := p.piece)]

theorem stackerOfCode_isSome_iff (n : Nat) : (stackerOfCode n).isSome = true ↔ n = 1 ∨ n = 2 := by
  unfold stackerOfCode
  split
  · simp [*]
  · split <;> simp [*]

theorem trayOfCode_of_tray {n : Nat} {tray : Fin 4} (h : n = tray.val + 1) : trayOfCode n = some tray := by
  subst h
  fin_cases tray <;> rfl

theorem sheetTests_decide (base : BitVec 4) (c : Setup) (o : Option OpenPiece) (slot : List Byte) :
    List.Forall₂ Decides (sheetTests base c o slot) (sheetConditions base c o slot) := by
  have hraster : (sideOk base c (sheetLength slot) (frontSide slot) &&
        (match backSide slot with | none => true | some b => sideOk base c (sheetLength slot) b)) = true ↔
      rasterFits base c (sheetLength slot) (frontSide slot) ∧
        ∀ b, backSide slot = some b → rasterFits base c (sheetLength slot) b := by
    rw [Bool.and_eq_true, sideOk_iff_rasterFits]
    cases backSide slot <;> simp [sideOk_iff_rasterFits]
  have houtput : (o.all fun p => decide ((stackerOfCode (byteAt slot 4)).getD .a = p.output)) = true ↔
      ∀ p, o = some p → (stackerOfCode (byteAt slot 4)).getD .a = p.output := by
    cases o <;> simp
  exact .cons ⟨sheetReservedOk_iff slot, rfl⟩ (.cons ⟨by simp [inRange, parseSheet], rfl⟩
    (.cons ⟨trayTest_iff c slot, rfl⟩ (.cons ⟨plexOk_iff c slot, rfl⟩ (.cons ⟨hraster, rfl⟩
    (.cons ⟨stackerOfCode_isSome_iff _, rfl⟩ (.cons ⟨pieceOrderOk_iff o slot, rfl⟩ (.cons ⟨houtput, rfl⟩ .nil)))))))

theorem judgeSheet_eq_none_iff (base : BitVec 4) (c : Setup) (o : Option OpenPiece) (slot : List Byte) :
    judgeSheet base c o slot = none ↔ ∀ p ∈ sheetConditions base c o slot, p.1 := by
  rw [judgeSheet_eq_firstFailing]
  exact firstFailing_eq_none_iff (sheetTests_decide base c o slot)

theorem judgeSheet_of_split {base : BitVec 4} {c : Setup} {o : Option OpenPiece} {slot : List Byte}
    {before after : List (Prop × RejectReason)} {holds : Prop} {r : RejectReason}
    (h : sheetConditions base c o slot = before ++ (holds, r) :: after) (hbefore : ∀ p ∈ before, p.1)
    (hfail : ¬holds) : judgeSheet base c o slot = some r := by
  rw [judgeSheet_eq_firstFailing]
  exact firstFailing_of_split (h ▸ sheetTests_decide base c o slot) hbefore hfail

/-! ### The handling of a SHEET order -/

theorem exec_sheet_of_returns {s : State} {slot : List Byte} (hret : s.slotReturns = true)
    (hpost : byteAt slot 56 = 1) (hk : byteAt slot 0 = 1) :
    exec (.sheet slot) s = .next (settle (handleSheet slot (freePort (begin s)))) :=
  congrArg _ (onOrder_of_returns hret hpost hk (handleSheet slot))

theorem handleSheet_of_defers {s : State} (slot : List Byte) (h : s.defers = true) :
    handleSheet slot s = { s with fetch := { s.fetch with inHand := none, deferred := true } } :=
  if_pos h

theorem handleSheet_of_fails {s : State} {slot : List Byte} {r : RejectReason} (hd : s.defers = false)
    (hj : judgeSheet s.setup.base s.cfg s.fetch.openPiece slot = some r) : handleSheet slot s = rejectOrder r slot s := by
  simp [handleSheet, hd, hj]

theorem handleSheet_of_passes {s : State} {slot : List Byte} (hd : s.defers = false)
    (hj : judgeSheet s.setup.base s.cfg s.fetch.openPiece slot = none) :
    handleSheet slot s =
      finishSlot { post := postSheet s.fetch.counter, record := none, cancelOpen := false } (acceptSheet slot s) := by
  simp [handleSheet, hd, hj]

/-- The implied cancel closes the open piece whatever is found (R12). -/
theorem impliedCancel_openPiece (s : State) : (impliedCancel s).fetch.openPiece = none := by
  unfold impliedCancel
  split
  · assumption
  · rfl

theorem rejectOrder_openPiece {s : State} {slot : List Byte} (r : RejectReason) (hk : byteAt slot 0 = 1)
    (hroom : s.pass.own.length < 16) : (rejectOrder r slot s).fetch.openPiece = none := by
  have hfin := rejectOrder_finishes (s := s) r slot rfl
  rw [State.finishes, if_pos hroom] at hfin
  obtain ⟨u, -, hu⟩ := hfin
  rw [hu, if_pos (by simp [rejectFinish, hk])]
  exact impliedCancel_openPiece u

theorem locksOf_eq (x : LogicalSheet) :
    locksOf x =
      { seq := x.seq, side := .front, base := x.front.base, len := x.front.len } ::
        x.back.toList.map fun b => { seq := x.seq, side := .back, base := b.base, len := b.len } := by
  cases h : x.back <;> simp [locksOf, h]

end Sys2Proof.Machine

open Sys2Proof Sys2Proof.Machine

/-- Settles O28: the order is accepted and its slot finished with the counter's value. -/
theorem sheetOrderAccepted : Obligations.SheetOrderAccepted := by
  intro s slot hret hpost hk hlen hseq hj
  have hd : s.defers = false := (not_defers_iff s).mpr ⟨by omega, hseq⟩
  refine ⟨_, _, (exec_sheet_of_returns hret hpost hk).trans
    (congrArg (fun d => Host.Outcome.next (settle d)) (handleSheet_of_passes (s := freePort (begin s)) hd hj)), rfl, ?_⟩
  rw [← locksOf_eq]
  exact finishSlot_finishes { post := postSheet s.fetch.counter, record := none, cancelOpen := false }
    (acceptSheet slot (freePort (begin s)))

/-- Settles O29: the order is deferred, or judged by its tests, the first that fails giving the reason. -/
theorem sheetOrderNotAccepted : Obligations.SheetOrderNotAccepted := by
  intro s slot hret hpost hk defers x zero flag raster tests
  have hexec := exec_sheet_of_returns hret hpost hk
  refine ⟨fun hd => ?_, fun before after holds r hd hsplit hbefore hfail => ?_, judgeSheet_eq_none_iff ..⟩
  · exact hexec.trans (congrArg (fun d => Host.Outcome.next (settle d)) (handleSheet_of_defers slot ((defers_iff _).mpr hd)))
  · have hd' : s.defers = false := Bool.eq_false_iff.mpr fun h => hd ((defers_iff s).mp h)
    have hj := judgeSheet_of_split (base := s.setup.base) (c := s.cfg) (o := s.fetch.openPiece) hsplit hbefore hfail
    have hh := handleSheet_of_fails (s := freePort (begin s)) hd' hj
    exact ⟨_, hexec.trans (congrArg (fun d => Host.Outcome.next (settle d)) hh), rejectOrder_finishes _ _ rfl, by simp,
      fun hroom => rejectOrder_openPiece r hk hroom⟩

/-- Settles O30: what the tests say of the sheet's fields. -/
theorem acceptedSheetIsSound : Obligations.AcceptedSheetIsSound := by
  intro base c o slot hj x
  have hall := (judgeSheet_eq_none_iff base c o slot).mp hj
  simp only [sheetConditions, List.forall_mem_cons] at hall
  obtain ⟨-, ⟨hlo, hhi⟩, ⟨tray, htray, hfitted⟩, hplex, ⟨hfront, hback⟩, houtput, ⟨hi1, hi2, hi3, hi4, hi5⟩, hmix, -⟩ :=
    hall
  have hx : x.tray = tray := by simp [x, parseSheet, trayOfCode_of_tray htray]
  have hb : x.back.isSome = true ↔ (byteAt slot 1).testBit 1 = true := by
    simp [x, parseSheet, backSide, sheetHasBack, sheetFlag, bitOf_eq_testBit]
  have hp : byteAt slot 2 = 1 ∧ x.plex = .simplex ∧ ¬x.back.isSome = true ∨
      byteAt slot 2 = 2 ∧ x.plex = .duplex ∧ x.back.isSome = true ∧ c.loopLength ≠ 0 := by
    rw [hb]
    exact hplex.imp (fun ⟨h, hf⟩ => ⟨h, by simp [x, parseSheet, plexOfCode, h], hf⟩)
      (fun ⟨h, hf, hl⟩ => ⟨h, by simp [x, parseSheet, plexOfCode, h], hf, hl⟩)
  refine ⟨hlo, hhi, hx ▸ htray, hx ▸ hfitted, ?_, ?_, hi1, hi2, hi3, hi4, fun p ho => ?_, ?_, ?_, ?_⟩
  · exact hp.imp (fun ⟨h, h', _⟩ => ⟨h, h'⟩) (fun ⟨h, h', _⟩ => ⟨h, h'⟩)
  · exact houtput.imp (fun h => ⟨h, by simp [x, parseSheet, stackerOfCode, h]⟩)
      (fun h => ⟨h, by simp [x, parseSheet, stackerOfCode, h]⟩)
  · obtain ⟨hpiece, hindex⟩ := hi5 p ho
    exact ⟨hpiece.symm, hindex, hmix p ho⟩
  · rcases hp with ⟨-, h, hno⟩ | ⟨-, h, hyes, -⟩
    · simp [h, hno]
    · simp [h, hyes]
  · rcases hp with ⟨-, h, -⟩ | ⟨-, -, -, hl⟩
    · simp [h]
    · exact fun _ => hl
  · rintro r (rfl | hr)
    · exact hfront
    · exact hback r hr

end

section
/-! SUPPORT. The controller's own accesses: handing over (R141), the setup's decision (R148 to R152), failed accesses (R143),
and the history's dump (R172, R173). -/

namespace Sys2Proof.Machine

/-! ### Handing over -/

theorem exec_handover_of_full {s : State} (b : OwnBlock) (h : 16 ≤ s.pass.own.length) :
    exec (.ownAccessHandover b) s = .next s :=
  congrArg _ (if_neg (by simpa [State.ownRoom] using h))

theorem exec_handover_of_room {s : State} (b : OwnBlock) (h : s.pass.own.length < 16) :
    exec (.ownAccessHandover b) s = .next (handOver b s) :=
  congrArg _ (if_pos (decide_eq_true h))

theorem carries_of_granted {s : State} {a : OwnAccess} {k : OwnKind} (hg : s.pass.granted = some (.own a))
    (hk : a.kind = k) : s.carries k = true := by
  simp [State.carries, State.grantedOwn, hg, hk]

theorem finishNow_finishes {s : State} (f : Finish) (h : s.pass.own.length < 16) :
    State.finishes f s (finishNow f s) := by
  have hf : finishSlot f s = finishNow f s := if_pos (decide_eq_true h)
  exact hf ▸ finishSlot_finishes f s

theorem dumpReady_iff (s : State) (d : Dump) :
    s.dumpReady d = true ↔
      s.pass.own.length < 16 ∧ d.failed = none ∧ d.issued < (d.snapshot.length + 3) / 4 := by
  rw [State.dumpReady, State.ownRoom, Bool.and_eq_true, Bool.and_eq_true, decide_eq_true_iff, decide_eq_true_iff,
    Option.isNone_iff_eq_none, and_assoc]
  rfl

section
variable {s : State}

theorem handOver_fetcher {f : Finish} (h : s.fetch.finish = some f) :
    handOver .fetcher s = settle (finishNow f (begin s)) := by
  simp [handOver, h]

theorem handOver_fetcher_none (h : s.fetch.finish = none) : handOver .fetcher s = s := by
  simp [handOver, h]

theorem handOver_setup_of_issued (h : s.setup.fetch ≠ .fetching ∨ 64 ≤ s.setup.issued) : handOver .setup s = s :=
  if_neg fun ⟨hf, hi⟩ => h.elim (fun h => h hf) (fun h => by omega)

theorem handOver_history {d : Dump} (h : s.history.dump = some d) :
    handOver .history s = if s.dumpReady d then pushDumpWrite d (begin s) else s := by
  simp [handOver, h]

theorem handOver_history_none (h : s.history.dump = none) : handOver .history s = s := by
  simp [handOver, h]

end

/-! ### The dump -/

theorem dump_writes_append (own : List OwnAccess) (dest i n : Nat) (snapshot : List HistEntry) :
    own ++ [{ kind := .dumpWrite i, addr := dest + 64 * i, len := 64, data := dumpBytes snapshot i }] ++
        (List.range n).map (fun j =>
          ({ kind := .dumpWrite (i + 1 + j), addr := dest + 64 * (i + 1 + j), len := 64
             data := dumpBytes snapshot (i + 1 + j) } : OwnAccess)) =
      own ++ (List.range (n + 1)).map fun j =>
        { kind := .dumpWrite (i + j), addr := dest + 64 * (i + j), len := 64, data := dumpBytes snapshot (i + j) } := by
  rw [List.range_succ_eq_map, List.map_cons, List.map_map, List.append_assoc, List.singleton_append]
  simp [Function.comp_def, Nat.add_assoc, Nat.add_comm 1]

/-- The state in which the dump `d` has handed over `m` more writes (R172). -/
def State.withDumpWrites (d : Dump) (m : Nat) (s : State) : State :=
  { s with
    pass :=
      { s.pass with
        own := s.pass.own ++
          (List.range m).map fun j =>
            { kind := .dumpWrite (d.issued + j), addr := d.dest + 64 * (d.issued + j), len := 64
              data := dumpBytes d.snapshot (d.issued + j) } }
    history := { s.history with dump := some { d with issued := d.issued + m } } }

theorem withDumpWrites_zero {d : Dump} {s : State} (h : s.history.dump = some d) : s.withDumpWrites d 0 = s := by
  simp [State.withDumpWrites, ← h]

theorem withDumpWrites_pushDumpWrite (d : Dump) (m : Nat) (s : State) :
    (pushDumpWrite d s).withDumpWrites { d with issued := d.issued + 1 } m = s.withDumpWrites d (m + 1) := by
  unfold State.withDumpWrites
  rw [← dump_writes_append]
  simp [pushDumpWrite, pushOwn, Nat.add_assoc, Nat.add_comm 1]

/-- The number of writes that a dump can hand over now: as many as are left and as the own-access FIFO has room for. -/
def State.dumpRoom (s : State) (d : Dump) : Nat :=
  min (16 - s.pass.own.length) ((d.snapshot.length + 3) / 4 - d.issued)

theorem dumpRoom_of_not_ready {s : State} {d : Dump} (hf : d.failed = none) (h : ¬s.dumpReady d = true) :
    s.dumpRoom d = 0 := by
  rw [dumpReady_iff] at h
  unfold State.dumpRoom
  by_contra h0
  exact h ⟨by omega, hf, by omega⟩

theorem dumpRoom_of_ready {s : State} {d : Dump} (h : s.dumpReady d = true) :
    s.dumpRoom d = (pushDumpWrite d s).dumpRoom { d with issued := d.issued + 1 } + 1 := by
  obtain ⟨hown, -, hi⟩ := (dumpReady_iff s d).mp h
  simp only [State.dumpRoom, pushDumpWrite, pushOwn, List.length_append, List.length_singleton]
  omega

/-- A dump hands over the writes that it can (R141, R172). -/
theorem fillDump_eq (n : Nat) (s : State) (d : Dump) (hd : s.history.dump = some d) (hf : d.failed = none)
    (hn : s.dumpRoom d ≤ n) : fillDump n s = s.withDumpWrites d (s.dumpRoom d) := by
  induction n generalizing s d with
  | zero =>
    rw [Nat.le_zero.mp hn, withDumpWrites_zero hd]
    rfl
  | succ n ih =>
    by_cases hr : s.dumpReady d = true
    · have hstep : fillDump (n + 1) s = fillDump n (pushDumpWrite d s) := by simp [fillDump, hd, hr]
      have hroom := dumpRoom_of_ready hr
      rw [hstep, ih (pushDumpWrite d s) { d with issued := d.issued + 1 } rfl hf (by omega),
        withDumpWrites_pushDumpWrite, ← hroom]
    · have hstep : fillDump (n + 1) s = s := by simp [fillDump, hd, hr]
      rw [hstep, dumpRoom_of_not_ready hf hr, withDumpWrites_zero hd]

theorem dumpFieldsOk_capacity {base : BitVec 4} {c : Setup} {slot : List Byte} (h : dumpFieldsOk base c slot = true) :
    1 ≤ byteAt slot 4 ∧ byteAt slot 4 ≤ 32 := by
  simp only [dumpFieldsOk, inRange, dumpCapacity, Bool.and_eq_true, decide_eq_true_eq] at h
  obtain ⟨⟨⟨⟨-, hcap⟩, -⟩, -⟩, -⟩ := h
  exact ⟨of_decide_eq_true hcap.1, of_decide_eq_true hcap.2⟩

theorem dumpWriteIndex_of_granted {s : State} {a : OwnAccess} {k : Nat} (hg : s.pass.granted = some (.own a))
    (hk : a.kind = .dumpWrite k) : s.dumpWriteIndex = some k := by
  simp [State.dumpWriteIndex, State.grantedOwn, hg, hk]

theorem exec_dumpWriteComplete_of_granted {s : State} {a : OwnAccess} {k : Nat} {p : Dump}
    (hg : s.pass.granted = some (.own a)) (hk : a.kind = .dumpWrite k) (hd : s.history.dump = some p) :
    exec .dumpWriteComplete s = .next (noteDumpWrite { p with done := p.done + 1 } (freePort (begin s))) := by
  change execDumpWriteComplete s = _
  rw [execDumpWriteComplete, dumpWriteIndex_of_granted hg hk, hd]

theorem over_iff (d : Dump) :
    d.over = true ↔
      d.failed = none ∧ d.done = (d.snapshot.length + 3) / 4 ∨ d.failed ≠ none ∧ d.done = d.issued := by
  cases h : d.failed <;> simp [Dump.over, h, dumpWrites]

/-- The dump ends with DUMP_DONE in place of its reservation (R172, R173). -/
theorem endDump_eq (d : Dump) (s : State) :
    endDump d s =
      handRecord
        (.dumpDone
          { ok := decide (d.failed = none)
            written := match d.failed with
              | none => d.snapshot.length
              | some j => min d.snapshot.length (4 * j)
            held := d.held, dest := d.dest, pos := d.pos
            frozen := s.history.frozen && !(d.unfreeze && decide (d.failed = none)) })
        { s with
          history :=
            { s.history with
              dump := none, frozen := s.history.frozen && !(d.unfreeze && decide (d.failed = none)) } } := by
  have hok : d.failed.isNone = decide (d.failed = none) := by cases d.failed <;> rfl
  rw [endDump, hok]
  rfl

section
variable {slot : List Byte} {s : State}

theorem dumpWork_of_busy (h : s.history.dump ≠ none) : dumpWork slot s = (s, .busy) :=
  if_pos (Option.isSome_iff_ne_none.mpr h)

theorem dumpWork_of_empty (h : s.history.dump = none) (h0 : s.history.entries.length = 0) :
    dumpWork slot s = (endDump (newDump slot s) s, .ok) := by
  simp [dumpWork, h, newDump, newest, List.length_eq_zero_iff.mp h0]

theorem dumpWork_of_held (h : s.history.dump = none) (hcap : 1 ≤ byteAt slot 4) (hheld : 0 < s.history.entries.length) :
    dumpWork slot s =
      (fillDump 8 { s with history := { s.history with dump := some (newDump slot s) } }, .ok) := by
  have hsnap : (newDump slot s).snapshot.isEmpty = false := by
    rw [Bool.eq_false_iff, Ne, List.isEmpty_iff, ← List.length_eq_zero_iff]
    simp only [newDump, newest, dumpCapacity, List.length_drop]
    omega
  simp [dumpWork, h, hsnap]

theorem endDump_newDump_of_empty (h : s.history.dump = none) (h0 : s.history.entries.length = 0) :
    endDump (newDump slot s) s =
      handRecord
        (.dumpDone
          { ok := true, written := 0, held := 0, dest := leAt slot 8 4, pos := s.time.pos
            frozen := s.history.frozen && decide (byteAt slot 5 ≠ 1) })
        { s with history := { s.history with frozen := s.history.frozen && decide (byteAt slot 5 ≠ 1) } } := by
  have hfrozen : (!(byteAt slot 5 == 1)) = decide (byteAt slot 5 ≠ 1) := by rw [decide_not]; rfl
  simp [endDump, newDump, newest, dumpDest, Dump.written, List.length_eq_zero_iff.mp h0, hfrozen, h]

theorem newDump_snapshot :
    (newDump slot s).snapshot =
      s.history.entries.drop (s.history.entries.length - min (byteAt slot 4) s.history.entries.length) := rfl

theorem newDump_snapshot_length :
    (newDump slot s).snapshot.length = min (byteAt slot 4) s.history.entries.length := by
  rw [newDump_snapshot, List.length_drop]
  omega

/-- A new dump hands over its first writes (R172). -/
theorem fillDump_newDump (hcap : byteAt slot 4 ≤ 32) :
    fillDump 8 { s with history := { s.history with dump := some (newDump slot s) } } =
      { s with
        pass :=
          { s.pass with
            own := s.pass.own ++
              (List.range (min (16 - s.pass.own.length) ((min (byteAt slot 4) s.history.entries.length + 3) / 4))).map
                fun j =>
                  { kind := .dumpWrite j, addr := leAt slot 8 4 + 64 * j, len := 64
                    data := dumpBytes (newDump slot s).snapshot j } }
        history :=
          { s.history with
            dump :=
              some
                { newDump slot s with
                  issued :=
                    min (16 - s.pass.own.length) ((min (byteAt slot 4) s.history.entries.length + 3) / 4) } } } := by
  have hroom : State.dumpRoom { s with history := { s.history with dump := some (newDump slot s) } } (newDump slot s) =
      min (16 - s.pass.own.length) ((min (byteAt slot 4) s.history.entries.length + 3) / 4) := by
    rw [State.dumpRoom, newDump_snapshot_length]
    rfl
  rw [fillDump_eq 8 _ (newDump slot s) rfl rfl (by rw [hroom]; omega), hroom, State.withDumpWrites]
  simp [newDump, dumpDest]

end

/-! ### The decision -/

theorem refusal_of_busy {s : State} (h : ¬s.acceptable = true) : s.refusal = some .busy := by
  simp [State.refusal, h]

theorem refusal_of_acceptable {s : State} (h : s.acceptable = true) :
    s.refusal = validate s.setup.base s.setup.copy := by
  simp [State.refusal, h]

/-- A setup that fails the validation is refused with the reason of the first check that fails (R149, R150). -/
theorem validate_of_fails {base : BitVec 4} {c : SetupCopy} (h : validate base c ≠ none) :
    validate base c =
      some
        (if formatOk c = false then .format
          else if regionOk base (parseSetup c) = false then .region
          else if geometryOk (parseSetup c) = false then .geometry
          else if timingOk (parseSetup c) = false then .timing
          else .loop) := by
  unfold validate at h ⊢
  cases h1 : formatOk c with
  | false => simp
  | true =>
    cases h2 : regionOk base (parseSetup c) with
    | false => simp [h2]
    | true =>
      cases h3 : geometryOk (parseSetup c) with
      | false => simp [h2, h3]
      | true =>
        cases h4 : timingOk (parseSetup c) with
        | false => simp [h2, h3, h4]
        | true =>
          cases h5 : loopOk (parseSetup c) with
          | false => simp [h2, h3, h4, h5]
          | true => simp [h1, h2, h3, h4, h5] at h

section
variable {s : State} (hf : s.setup.fetch = .deciding) (ho : s.report.outstanding = none) (hi : s.fetch.inHand = none)
include hf ho hi

theorem exec_setupDecision_of_refusal {r : SetupOutcome} (h : s.refusal = some r) :
    exec .setupDecision s = .next (refuseSetup r (begin s)) := by
  change execSetupDecision s = _
  rw [execSetupDecision, if_pos (by simp [State.mayDecide, hf, ho, hi]), h]

theorem exec_setupDecision_of_accepted (h : s.refusal = none) :
    exec .setupDecision s = .next (settle (acceptSetup (begin s))) := by
  change execSetupDecision s = _
  rw [execSetupDecision, if_pos (by simp [State.mayDecide, hf, ho, hi]), h]

end

/-! ### Failed accesses -/

theorem exec_ownAccessError_of_granted {s : State} {a : OwnAccess} (hg : s.pass.granted = some (.own a)) :
    exec .ownAccessError s = .next (settle (ownError a.kind (freePort (begin s)))) := by
  change execOwnAccessError s = _
  have ho : s.grantedOwn = some a := by simp [State.grantedOwn, hg]
  rw [execOwnAccessError, ho]

theorem ownError_of_stop {k : OwnKind} (s : State) (h : k.isSetupRead = false) :
    ownError k s = stopAtP .memory (blockError k (flagError s)) := by
  simp [ownError, h]

theorem blockError_dumpWrite {s : State} {p : Dump} (k : Nat) (h : s.history.dump = some p) :
    blockError (.dumpWrite k) s =
      noteDumpWrite { p with done := p.done + 1, failed := some (p.failed.getD k) } s := by
  simp [blockError, h]

theorem noteDumpWrite_of_failed {s : State} {p : Dump} {k : Nat} (h : p.failed = some k) :
    noteDumpWrite p s =
      if p.done = p.issued then endDump p s else { s with history := { s.history with dump := some p } } := by
  simp [noteDumpWrite, Dump.over, h]

theorem blockError_setupRead {s : State} (k : Nat) (h : s.setup.fetch = .fetching) :
    blockError (.setupRead k) s = noteSetupRead false [] s :=
  if_pos h

theorem noteSetupRead_error_of_more {s : State} (h : s.setup.done + 1 < 64) :
    noteSetupRead false [] s =
      { s with setup := { s.setup with copy := s.setup.copy ++ [[]], done := s.setup.done + 1, failed := true } } := by
  simp [noteSetupRead, endFetch, h]

theorem noteSetupRead_error_of_last {s : State} (h : 64 ≤ s.setup.done + 1) :
    noteSetupRead false [] s =
      handRefusal .memory 0
        { s with
          setup := { s.setup with copy := [], done := s.setup.done + 1, failed := true, fetch := .idle } } := by
  simp [noteSetupRead, endFetch, Nat.not_lt.mpr h]

theorem stopsIn_memory_iff (r : RunState) :
    stopsIn .memory r = true ↔ r = .idle ∨ r = .starting ∨ r = .running ∨ r = .draining := by
  cases r <;> simp [stopsIn]

/-- A cause that stops in the run state leaves STOPPED (R43). -/
theorem stop_run_state {cause : StopCause} {s : State} (h : stopsIn cause s.run.state = true)
    (station : Option Station) (pos : Pos) (launch : Option Launch) (serial : Option Serial) :
    (stop cause station pos launch serial s).run.state = .stopped := by
  rcases stop_cases cause station pos launch serial s with ⟨hno, -⟩ | ⟨-, -, he⟩ | ⟨-, -, he⟩
  · simp [h] at hno
  · simp [he, haltPath]
  · simp [he, haltPath]

end Sys2Proof.Machine

open Sys2Proof Sys2Proof.Machine

/-- Settles O39, block by block, with room and without. -/
theorem handoverAndWriteback : Obligations.HandoverAndWriteback := by
  intro s
  refine ⟨fun a hg hk => ?_, fun hfull b => exec_handover_of_full b hfull,
    fun hroom => ⟨fun f hf => ?_, fun hf => ?_, fun hf hi => ?_, fun h => ?_, fun d hd hfail hi => ?_, fun hd => ?_,
      fun d hd h => ?_, fun hw => ?_, fun hw => ?_⟩⟩
  · exact congrArg _ (if_pos (carries_of_granted hg hk))
  · exact ⟨_, (exec_handover_of_room .fetcher hroom).trans (congrArg _ (handOver_fetcher hf)),
      finishNow_finishes f hroom⟩
  · exact (exec_handover_of_room .fetcher hroom).trans (congrArg _ (handOver_fetcher_none hf))
  · exact (exec_handover_of_room .setup hroom).trans (congrArg _ (if_pos ⟨hf, hi⟩))
  · exact (exec_handover_of_room .setup hroom).trans (congrArg _ (handOver_setup_of_issued h))
  · exact (exec_handover_of_room .history hroom).trans (congrArg _ ((handOver_history hd).trans
      (if_pos ((dumpReady_iff s d).mpr ⟨hroom, hfail, hi⟩))))
  · exact (exec_handover_of_room .history hroom).trans (congrArg _ (handOver_history_none hd))
  · refine (exec_handover_of_room .history hroom).trans (congrArg _ ((handOver_history hd).trans (if_neg fun hr => ?_)))
    obtain ⟨-, hfail, hi⟩ := (dumpReady_iff s d).mp hr
    exact h.elim (fun h => h hfail) (fun h => by omega)
  · exact (exec_handover_of_room .report hroom).trans (congrArg _ (if_neg (Bool.eq_false_iff.mp hw)))
  · exact (exec_handover_of_room .report hroom).trans (congrArg _ (if_pos hw))

/-- Settles O40: BUSY, or the first of the validation's checks. -/
theorem setupRefused : Obligations.SetupRefused := by
  intro s r hf ho hi rest c reason h
  have hrefuse : s.refusal = some r := by
    rcases h with ⟨hrest, rfl⟩ | ⟨hrest, hv, rfl⟩
    · exact refusal_of_busy fun h => hrest ((acceptable_iff s).mp h)
    · rw [refusal_of_acceptable ((acceptable_iff s).mpr hrest)]
      exact validate_of_fails hv
  exact exec_setupDecision_of_refusal hf ho hi hrefuse

/-- Settles O43: the flag, the block's part, and the stop for all but a read of the setup fetch. -/
theorem ownAccessFails : Obligations.OwnAccessFails := by
  constructor
  · exact fun d => ⟨fun h => stop_run_state ((stopsIn_memory_iff _).mpr h) ..,
      fun h => stop_of_not_stopsIn (Bool.eq_false_iff.mpr fun hs => h ((stopsIn_memory_iff _).mp hs)) .., rfl⟩
  · intro s a hg free
    have hexec := exec_ownAccessError_of_granted hg
    have hstop (h : a.kind.isSetupRead = false) :
        exec .ownAccessError s = .next (settle (stopAtP .memory (blockError a.kind free))) :=
      hexec.trans (next_settle_congr (ownError_of_stop (freePort (begin s)) h))
    have hread {k : Nat} (h : a.kind = .setupRead k) (hf : s.setup.fetch = .fetching) :
        exec .ownAccessError s = .next (settle (noteSetupRead false [] free)) := by
      rw [h] at hexec
      exact hexec.trans (next_settle_congr (blockError_setupRead (s := free) k hf))
    refine ⟨fun hk => ?_, fun hk => ?_, fun k p hk hd => ?_, fun k hk hf hn => ?_, fun k hk hf hn => ?_⟩
    · rcases hk with hk | hk
      · simpa [hk, blockError] using hstop (by simp [hk, OwnKind.isSetupRead])
      · simpa [hk, blockError] using hstop (by simp [hk, OwnKind.isSetupRead])
    · rcases hk with hk | ⟨v, hk⟩
      · simpa [hk, blockError] using hstop (by simp [hk, OwnKind.isSetupRead])
      · simpa [hk, blockError] using hstop (by simp [hk, OwnKind.isSetupRead])
    · refine ⟨_, hstop (by simp [hk, OwnKind.isSetupRead]), ?_⟩
      rw [hk]
      exact (blockError_dumpWrite (s := free) k hd).trans (noteDumpWrite_of_failed rfl)
    · exact (hread hk hf).trans (next_settle_congr (noteSetupRead_error_of_more hn))
    · exact (hread hk hf).trans (next_settle_congr (noteSetupRead_error_of_last hn))

/-- Settles O37: the three answers of a DUMP order, and a dump write that leaves more to wait for or none. -/
theorem dumps : Obligations.Dumps := by
  constructor
  · intro s slot hret hpost hk hen hwf free held k snapshot n answers
    obtain ⟨hlo, hhi⟩ := dumpFieldsOk_capacity (Bool.and_eq_true_iff.mp hwf).2
    have answer {r : ControlResult} {x : State} (hwork : dumpWork slot free = (x, r))
        (hin : x.fetch.inHand = s.fetch.inHand) : answers r x :=
      control_answers hret hpost hk rfl rfl ((kindEnabled_iff ..).mpr (.inr (.inr hen))) hwf hwork hin
    refine ⟨fun hd => ?_, fun hd h0 => ?_, fun hd h0 => ?_⟩
    · exact answer (dumpWork_of_busy hd) rfl
    · exact answer ((dumpWork_of_empty (s := free) hd h0).trans
        (congrArg (·, ControlResult.ok) (endDump_newDump_of_empty (s := free) hd h0))) rfl
    · exact answer ((dumpWork_of_held (s := free) hd hlo h0).trans
        (congrArg (·, ControlResult.ok) (fillDump_newDump (s := free) hhi))) rfl
  · intro s a k p hg hk hd free p' last frozen
    have hexec := exec_dumpWriteComplete_of_granted hg hk hd
    refine ⟨fun hl => ?_, fun hl => ?_⟩
    · exact hexec.trans (congrArg _ (if_neg fun ho => hl ((over_iff p').mp ho)))
    · exact hexec.trans (congrArg _ ((if_pos ((over_iff p').mpr hl)).trans (endDump_eq p' free)))

end

section
/-! SUPPORT. The report unit's writes (R156 to R160, R170) and the acceptance of a setup (R151, R152). -/

namespace Sys2Proof.Machine

/-! ### The bytes of a record -/

theorem hitFields_length (item : HitItem) : (hitFields item).length ≤ 20 := by
  cases item <;> simp [hitFields, serialField, toLE_length]

/-- Every record fits its slot of the report ring (R156). -/
theorem recordBytes_length (r : Record) : (recordBytes r).length ≤ 32 := by
  cases r with
  | watchHit r =>
    have h := hitFields_length r.particulars.item
    simp only [recordBytes, List.length_append, List.length_cons, List.length_nil, toLE_length]
    omega
  | orderRejected r => cases h : r.sheet <;> simp [recordBytes, h, toLE_length]
  | _ => simp [recordBytes, sheetFields, serialField, toLE_length]

theorem encodeRecord_length (r : Record) : (encodeRecord r).length = 32 := padTo_length 32 _ (recordBytes_length r)

/-! ### When the writes are issued -/

theorem ringRoom_iff (s : State) :
    s.ringRoom = true ↔ (s.report.write + 1) % s.cfg.reportSlots ≠ s.report.tail := by
  simp [State.ringRoom]

theorem not_writesHeld_iff (s : State) :
    s.writesHeld = false ↔ s.setup.fetch ≠ .deciding ∧ s.report.halted = false := by
  simp [State.writesHeld]

/-- When a head-word write is due (R160). -/
theorem headDue_iff (s : State) :
    s.headDue = true ↔
      s.report.write ≠ s.report.head ∧
        (s.report.queue = [] ∨ (s.report.write + 1) % s.cfg.reportSlots = s.report.tail ∨ 4 ≤ s.report.sinceHead) := by
  simp [State.headDue, State.ringRoom, or_assoc]

theorem isSet_iff (s : State) : s.isSet = true ↔ s.run.state ≠ .unset := by
  simp [State.isSet]

/-- The conditions of R159 for the record at the head of the queue. -/
theorem mayWriteRecord_iff {s : State} {q : Queued} {qs : List Queued} (hq : s.report.queue = q :: qs) :
    s.mayWriteRecord = true ↔
      s.run.state ≠ .unset ∧ s.report.outstanding = none ∧
        (s.report.write + 1) % s.cfg.reportSlots ≠ s.report.tail ∧ s.setup.fetch ≠ .deciding ∧
        s.report.halted = false ∧ ¬(s.report.write ≠ s.report.head ∧ 4 ≤ s.report.sinceHead) ∧
        s.pass.own.length < 16 := by
  have hdue : s.headDue = false ↔ ¬(s.report.write ≠ s.report.head ∧
      ((s.report.write + 1) % s.cfg.reportSlots = s.report.tail ∨ 4 ≤ s.report.sinceHead)) := by
    rw [← Bool.not_eq_true, headDue_iff]
    simp [hq]
  simp only [State.mayWriteRecord, Bool.and_eq_true, Bool.not_eq_true', isSet_iff, Option.isNone_iff_eq_none,
    ringRoom_iff, not_writesHeld_iff, hdue, State.ownRoom, decide_eq_true_eq, and_assoc]
  constructor
  · rintro ⟨h1, h2, h3, h4, h5, h6, h7⟩
    exact ⟨h1, h2, h3, h4, h5, fun ⟨ha, hb⟩ => h6 ⟨ha, .inr hb⟩, h7⟩
  · rintro ⟨h1, h2, h3, h4, h5, h6, h7⟩
    exact ⟨h1, h2, h3, h4, h5, fun ⟨ha, hb⟩ => h6 ⟨ha, hb.resolve_left h3⟩, h7⟩

/-- The conditions of R160. -/
theorem mayWriteHead_iff (s : State) :
    s.mayWriteHead = true ↔
      s.run.state ≠ .unset ∧ s.report.outstanding = none ∧ s.setup.fetch ≠ .deciding ∧ s.report.halted = false ∧
        s.report.write ≠ s.report.head ∧
        (s.report.queue = [] ∨ (s.report.write + 1) % s.cfg.reportSlots = s.report.tail ∨ 4 ≤ s.report.sinceHead) ∧
        s.pass.own.length < 16 := by
  simp only [State.mayWriteHead, Bool.and_eq_true, Bool.not_eq_true', isSet_iff, Option.isNone_iff_eq_none,
    not_writesHeld_iff, headDue_iff, State.ownRoom, decide_eq_true_eq, and_assoc]

/-! ### The commands -/

section
variable {s : State} {q : Queued} {qs : List Queued} (hq : s.report.queue = q :: qs)
include hq

theorem exec_recordWriteIssue_of_queue :
    exec .recordWriteIssue s = .next (if s.mayWriteRecord then issueRecord q qs (begin s) else s) := by
  change execRecordWriteIssue s = _
  rw [execRecordWriteIssue, hq]

theorem exec_recordWriteComplete_of_carried {a : OwnAccess} (hg : s.pass.granted = some (.own a))
    (hk : a.kind = .recordWrite) (ho : s.report.outstanding = some .record) :
    exec .recordWriteComplete s = .next (settle (recordWritten q qs (freePort (begin s)))) := by
  change execRecordWriteComplete s = _
  rw [execRecordWriteComplete, hq]
  exact congrArg _ (if_pos (by simp [carries_of_granted hg hk, ho]))

end

theorem settleHit_of_other {r : Record} (s : State) (h : ∀ w, r ≠ .watchHit w) : settleHit r s = s := by
  cases r with
  | watchHit w => exact absurd rfl (h w)
  | _ => rfl

theorem exec_headWordWriteComplete_of_carried {s : State} {a : OwnAccess} {v : Nat}
    (hg : s.pass.granted = some (.own a)) (hk : a.kind = .headWrite v) :
    exec .headWordWriteComplete s =
      .next { freePort (begin s) with report := { s.report with visible := v, outstanding := none } } := by
  have hv : s.headValue = some v := by simp [State.headValue, State.grantedOwn, hg, hk]
  change execHeadWordWriteComplete s = _
  rw [execHeadWordWriteComplete, hv]

/-! ### The acceptance of a setup -/

theorem takeOpenSetup_of_closed {qs : List Queued} (h : ∀ q ∈ qs, ∀ p, q ≠ { record := .setup p, fixed := false }) :
    takeOpenSetup qs = (none, qs) := by
  induction qs with
  | nil => rfl
  | cons q qs ih =>
    rw [List.forall_mem_cons] at h
    have hrest := ih h.2
    obtain ⟨record, fixed⟩ := q
    cases fixed with
    | true => simp [takeOpenSetup, hrest]
    | false =>
      cases record with
      | setup p => exact absurd rfl (h.1 p)
      | _ => simp [takeOpenSetup, hrest]

theorem takeOpenSetup_of_open {qs rs : List Queued} {p : SetupRec}
    (h : ∀ q ∈ qs, ∀ p, q ≠ { record := .setup p, fixed := false }) :
    takeOpenSetup (qs ++ { record := .setup p, fixed := false } :: rs) = (some p, qs ++ rs) := by
  induction qs with
  | nil => rfl
  | cons q qs ih =>
    rw [List.forall_mem_cons] at h
    have hrest := ih h.2
    obtain ⟨record, fixed⟩ := q
    cases fixed with
    | true => simp [takeOpenSetup, hrest]
    | false =>
      cases record with
      | setup p => exact absurd rfl (h.1 p)
      | _ => simp [takeOpenSetup, hrest]

/-- The SETUP record of an acceptance (R152). -/
def State.acceptanceRecord (s : State) : SetupRec where
  outcome := .accepted
  fetched := s.copyRevision
  inForce := s.copyRevision
  tally := s.tally
  count := (takeOpenSetup s.report.queue).1.elim 1 fun r => min (r.count + 1) 255

/-- The state that an acceptance with room in the own-access FIFO leaves, ahead of a change of the run state (R151). -/
def State.accepted (s : State) : State :=
  let c := parseSetup s.setup.copy
  { s with
    setup := { s.setup with inForce := some c, revision := s.copyRevision, fetch := .idle, copy := [] }
    fetch := { s.fetch with posted := [], next := 0, inHand := none, deferred := false, counter := 0 }
    pass :=
      { s.pass with
        locks := []
        own := s.pass.own ++ [{ kind := .headWrite 0, addr := c.controlBase, len := 8, data := headBytes 0 }] }
    expect :=
      { s.expect with
        items := []
        lines := Vector.ofFn fun i =>
          { stable := ((enforceSetup s).stationOf i).isSome && s.pins.sensors[i], change := none } }
    plan := { s.plan with gapMet := true, lastRelease := none }
    track := { s.track with piece := none }
    report :=
      { s.report with
        queue := { record := .setup s.acceptanceRecord, fixed := false } :: (takeOpenSetup s.report.queue).2
        write := 0, head := 0, visible := 0, tail := 0, sinceHead := 0, halted := false, outstanding := some .head
        headWaits := false } }

theorem acceptSetup_of_room {s : State} (h : s.pass.own.length < 16) :
    acceptSetup s = if s.run.state = .unset then changeRun .idle none s.accepted else s.accepted := by
  have hhead : headOfAcceptance (acceptBlocks (enforceSetup s)) = pushZeroHead (acceptBlocks (enforceSetup s)) :=
    if_neg (by simp [acceptBlocks, State.ownRoom, h])
  have haccepted : handAcceptance s.copyRevision (headOfAcceptance (acceptBlocks (enforceSetup s))) = s.accepted := by
    rw [hhead, handAcceptance]
    cases htaken : (takeOpenSetup s.report.queue).1 with
    | none =>
      simp [State.accepted, State.acceptanceRecord, pushZeroHead, pushOwn, acceptBlocks, enforceSetup, htaken, State.cfg]
    | some r =>
      simp [State.accepted, State.acceptanceRecord, pushZeroHead, pushOwn, acceptBlocks, enforceSetup, htaken, State.cfg,
        count255]
  rw [acceptSetup, haccepted]
  rfl

/-- The queue that a change of the run state leaves (R39). -/
theorem changeRun_queue_congr {s t : State} (new : RunState) (cause : Option StopCause) (hr : t.run = s.run)
    (ht : t.time = s.time) (hq : t.report.queue = s.report.queue) :
    (changeRun new cause t).report.queue = (changeRun new cause s).report.queue := by
  simp only [changeRun, handState, handOrFold, hr, ht, hq]
  split <;> simp [handRecord, hq]

theorem stationOf_isSome_iff {s : State} {c : Setup} (h : s.setup.inForce = some c) (l : Fin 16) :
    (s.stationOf l).isSome = true ↔ ∃ st, (c.station st).present = true ∧ (c.station st).line = l.val := by
  have hmem (st : Station) : st ∈ allStations := by cases st <;> decide
  simp [State.stationOf, h, List.find?_isSome, hmem]

end Sys2Proof.Machine

open Sys2Proof Sys2Proof.Machine

/-- Settles O42: both writes' conditions as R159 and R160 list them, and what their completions do. -/
theorem reportWrites : Obligations.ReportWrites := by
  constructor
  · intro s q qs hq may
    refine ⟨fun h => ⟨encodeRecord_length _, ?_⟩, fun h => ?_, ?_⟩
    · exact (exec_recordWriteIssue_of_queue hq).trans (congrArg _ (if_pos ((mayWriteRecord_iff hq).mpr h)))
    · exact (exec_recordWriteIssue_of_queue hq).trans
        (congrArg _ (if_neg fun hm => h ((mayWriteRecord_iff hq).mp hm)))
    · intro a hg hk ho d
      have hexec := exec_recordWriteComplete_of_carried hq hg hk ho
      refine ⟨fun hno => hexec.trans (next_settle_congr (settleHit_of_other d hno)), ?_⟩
      intro h hh w
      rw [recordWritten, hh] at hexec
      exact hexec
  · intro s may
    refine ⟨fun h => ?_, fun h => ?_, fun a v hg hk => exec_headWordWriteComplete_of_carried hg hk⟩
    · exact congrArg _ (if_pos ((mayWriteHead_iff s).mpr h))
    · exact congrArg _ (if_neg fun hm => h ((mayWriteHead_iff s).mp hm))

/-- Settles O41: the state that the acceptance leaves, and from UNSET the change of the run state behind it. -/
theorem setupAccepted : Obligations.SetupAccepted := by
  intro s hf ho hi hrest hv hroom c revision opened
  have href : s.refusal = none := (refusal_of_acceptable ((acceptable_iff s).mpr hrest)).trans hv
  have hrun : s.run.state = .unset ∨ s.run.state = .idle := hrest.imp_right And.left
  refine ⟨acceptSetup (begin s), s.acceptanceRecord, (takeOpenSetup s.report.queue).2,
    exec_setupDecision_of_accepted hf ho hi href, ?_⟩
  have hd := acceptSetup_of_room (s := begin s) hroom
  have hsame {β : Type} (π : State → β) (hπ : ∀ t, π (changeRun .idle none t) = π t) :
      π (acceptSetup (begin s)) = π (begin s).accepted := by
    rw [hd]
    split
    · exact hπ _
    · rfl
  have hidle (h : s.run.state = .idle) : acceptSetup (begin s) = (begin s).accepted :=
    hd.trans (if_neg (by simp [h]))
  have hunset (h : s.run.state = .unset) : acceptSetup (begin s) = changeRun .idle none (begin s).accepted :=
    hd.trans (if_pos (by simp [h]))
  have hexpect := hsame State.expect (by simp)
  refine ⟨hsame State.setup (by simp), hsame State.fetch (by simp), hsame State.pass (by simp), ?_, rfl, fun hno => ?_,
    fun qs rs p hq hno => ?_, fun h => ?_, fun h => ?_, ?_, fun l => ?_, hsame State.plan (by simp),
    hsame State.track (by simp), ?_, by simp, by simp, by simp, by simp, by simp, by simp, by simp, by simp [begin],
    by simp⟩
  · rcases hrun with h | h
    · rw [hunset h]
      apply ReportUnit.ext <;> simp [State.accepted]
    · rw [hidle h]
      rfl
  · simp [takeOpenSetup_of_closed hno, State.acceptanceRecord]
  · have htaken : takeOpenSetup s.report.queue = (some p, qs ++ rs) := hq ▸ takeOpenSetup_of_open hno
    simp [htaken, State.acceptanceRecord]
  · rw [hidle h]
    rfl
  · rw [hunset h]
    exact changeRun_queue_congr .idle none rfl rfl rfl
  · rw [hexpect]
    rfl
  · have hstation := stationOf_isSome_iff (s := enforceSetup (begin s)) (c := c) rfl l
    rw [hexpect, ← hstation]
    simp [State.accepted, and_comm]
  · rcases hrun with h | h
    · rw [hunset h, changeRun_run]
      rfl
    · rw [hidle h, ← h]
      rfl

end

section
/-! SUPPORT. The planner (R56 to R65, R68, R82): its choice among pick, re-feed and waiting, and what a pick, a re-feed and a
release leave. -/

namespace Sys2Proof.Machine

/-! ### Choosing the launch -/

theorem mayLaunch_iff (s : State) :
    s.mayLaunch = true ↔ s.plan.staged = none ∧ s.run.hold = false ∧ s.occupancy ≤ 5 ∧
      (s.run.state = .running ∨ s.run.state = .draining) := by
  simp [State.mayLaunch, State.throttleOpen, State.moving, and_assoc]

theorem loopRoom_iff (s : State) (l : Nat) :
    s.loopRoom l = true ↔ s.cfg.loopLength ≠ 0 ∧ s.plan.commitment + l + s.cfg.loopGap ≤ s.cfg.loopLength := by
  simp [State.loopRoom]

/-- The re-feed case of R59. -/
theorem refeedCase_iff (s : State) (h? : Option LogicalSheet) :
    s.refeedCase h? = true ↔ s.track.loop ≠ [] ∧
      (s.run.state = .draining ∨
        ∀ h, h? = some h → h.plex = .simplex ∨
          ¬(s.cfg.loopLength ≠ 0 ∧ s.plan.commitment + h.length + s.cfg.loopGap ≤ s.cfg.loopLength) ∨
          s.eligible h = false) := by
  cases h? with
  | none => simp [State.refeedCase]
  | some h =>
    simp only [← loopRoom_iff]
    cases hp : h.plex <;> simp [State.refeedCase, hp]

theorem refeedReady_iff (s : State) (e : PathEntry) :
    s.refeedReady e = true ↔ e.phase = .parked ∧ (e.sheet ≠ none → s.stackerFull e.ident.output = false) := by
  cases hs : e.sheet <;> simp [State.refeedReady, PathEntry.attached, hs]

/-- The pick case of R59. -/
theorem pickCase_iff (s : State) (h : LogicalSheet) :
    s.pickCase h = true ↔ s.run.state = .running ∧ s.eligible h = true ∧
      (h.plex = .duplex → s.loopRoom h.length = true) ∧ (h.plex = .simplex → s.track.loop = []) := by
  cases hp : h.plex <;> simp [State.pickCase, hp, and_assoc]

/-- A sheet's piece is eligible (R17). -/
theorem pieceEligible_iff (s : State) (h : LogicalSheet) :
    s.pieceEligible h = true ↔
      ∀ p, s.fetch.openPiece = some p → (h.seq - p.firstSeq).toNat < 8388608 → p.eligible = true := by
  cases ho : s.fetch.openPiece with
  | none => simp [State.pieceEligible, ho]
  | some p => cases he : p.eligible <;> simp [State.pieceEligible, ho, atOrPast, he]

theorem stackerFull_eq_false_iff (s : State) (k : Stacker) :
    s.stackerFull k = false ↔ (k = .a → s.pins.stkfullA = false) ∧ (k = .b → s.pins.stkfullB = false) := by
  cases k <;> simp [State.stackerFull]

/-- The schedule head is eligible for a pick (R57). -/
theorem eligible_iff (s : State) (h : LogicalSheet) :
    s.eligible h = true ↔
      (∀ p, s.fetch.openPiece = some p → (h.seq - p.firstSeq).toNat < 8388608 → p.eligible = true) ∧
        s.pins.trayrdy[h.tray] = true ∧ (h.output = .a → s.pins.stkfullA = false) ∧
        (h.output = .b → s.pins.stkfullB = false) ∧ s.track.path.length < s.cfg.pathDepth := by
  simp only [State.eligible, State.trayReady, Bool.and_eq_true, Bool.not_eq_true', pieceEligible_iff,
    stackerFull_eq_false_iff, decide_eq_true_eq, and_assoc]

theorem tryStage_of_not_may {s : State} (h : ¬s.mayLaunch = true) : tryStage s = s := if_neg h

theorem tryStage_of_may {s : State} (h : s.mayLaunch = true) :
    tryStage s = match s.decision with
      | .pick h => pick h s
      | .refeed e => refeed e s
      | .wait => s := by
  cases hd : s.decision <;> simp [tryStage, h, hd]

theorem decision_of_refeedCase {s : State} {l : Launch} {ls : List Launch} {e : PathEntry}
    (hc : s.refeedCase s.fetch.schedule.head? = true) (hl : s.track.loop = l :: ls) (he : s.entry? l = some e) :
    s.decision = if s.refeedReady e then .refeed e else .wait := by
  simp [State.decision, hc, hl, he]

theorem decision_of_pickCase {s : State} {h : LogicalSheet} {hs : List LogicalSheet}
    (hc : ¬s.refeedCase s.fetch.schedule.head? = true) (hh : s.fetch.schedule = h :: hs) :
    s.decision = if s.pickCase h then .pick h else .wait := by
  rw [hh, List.head?_cons] at hc
  simp [State.decision, hh, hc]

theorem tryStage_of_wait {s : State} (h : s.mayLaunch = true) (hd : s.decision = .wait) : tryStage s = s := by
  rw [tryStage_of_may h, hd]

/-! ### What a launch leaves of the logical sheets -/

/-- With distinct launch numbers, an update of one entry that keeps its logical sheet keeps them all (R74, R113). -/
theorem updEntry_attachedSheets {s : State} {e e' : PathEntry} (hd : s.launchesDistinct) (he : e ∈ s.track.path)
    (hs : e'.sheet = e.sheet) : (updEntry e.launch (fun _ => e') s).attachedSheets = s.attachedSheets := by
  simp only [State.attachedSheets, updEntry, List.filterMap_map]
  refine List.filterMap_congr fun x hx => ?_
  by_cases hl : x.launch = e.launch
  · have hxe : x = e := List.inj_on_of_nodup_map hd hx he hl
    simp [hxe, hs]
  · simp [hl]

theorem mem_updEntry {s : State} {e e' : PathEntry} (he : e ∈ s.track.path) :
    e' ∈ (updEntry e.launch (fun _ => e') s).track.path :=
  List.mem_map.mpr ⟨e, he, if_pos rfl⟩

/-- A command that changes one entry and keeps its sheet loses no logical sheet (R113). -/
theorem holdsSame_of_updEntry {s t : State} {e e' : PathEntry} (hd : s.launchesDistinct) (he : e ∈ s.track.path)
    (hs : e'.sheet = e.sheet) (hf : t.fetch = s.fetch) (ht : t.track = (updEntry e.launch (fun _ => e') s).track) :
    s.holdsSame t := by
  have hattached : t.attachedSheets = s.attachedSheets := by
    rw [← updEntry_attachedSheets hd he hs, State.attachedSheets, ht]
    rfl
  rw [State.holdsSame, State.heldSheets, State.heldSheets, hattached, hf, ht]
  exact .refl _

/-! ### The pick -/

section
variable (h : LogicalSheet) (s : State)

theorem pick_fetch : (pick h s).fetch = { s.fetch with schedule := s.fetch.schedule.tail } := by
  simp [pick_eq, State.feeding, State.entered]

theorem pick_path : (pick h s).track.path = s.track.path ++ [newEntry s.plan.counter s.time.pos h] := by
  rw [pick_eq]
  by_cases hp : h.plex = .duplex <;> simp [commitLoop, hp, State.feeding, State.entered]

theorem pick_store : (pick h s).track.store = s.track.store := by
  rw [pick_eq]
  by_cases hp : h.plex = .duplex <;> simp [commitLoop, hp, State.feeding, State.entered]

theorem pick_loop :
    (pick h s).track.loop = if h.plex = .duplex then s.track.loop ++ [s.plan.counter] else s.track.loop := by
  rw [pick_eq]
  by_cases hp : h.plex = .duplex <;> simp [commitLoop, hp, State.feeding, State.entered]

theorem pick_plan :
    (pick h s).plan =
      { s.plan with
        counter := s.plan.counter + 1, staged := some s.plan.counter
        commitment :=
          if h.plex = .duplex then s.plan.commitment + (h.length + s.cfg.loopGap) else s.plan.commitment } := by
  rw [pick_eq]
  by_cases hp : h.plex = .duplex <;> simp [commitLoop, hp, State.feeding, State.entered, State.cfg]

/-- A leading-edge item of a station, as a launch or a release arms it (R23, R26). -/
def State.leading (s : State) (l : Launch) (st : Station) (distance : Nat) : Item where
  kind := .edge l st .le
  pos := s.time.pos + BitVec.ofNat 24 distance
  early := (s.cfg.station st).early
  late := if s.time.estimate then min (2 * (s.cfg.station st).late) 65535 else (s.cfg.station st).late

theorem pick_expect :
    (pick h s).expect =
      { s.expect with
        items :=
          insertItem (s.leading s.plan.counter .reg (s.cfg.trays[h.tray]).p)
            (insertItem (s.leading s.plan.counter (feedStation h.tray) (s.cfg.trays[h.tray]).f) s.expect.items) } := by
  rw [pick_eq]
  by_cases hp : h.plex = .duplex <;> simp [commitLoop, hp] <;> rfl

theorem pick_history :
    (pick h s).history =
      s.history.remembering
        { kind := .pick h.tray, station := none, serial := none, seq := some h.seq, launch := some s.plan.counter
          pos := s.time.pos, runState := s.run.state } := by
  rw [pick_eq, appendHist_eq]
  simp [State.feeding, State.entered]

theorem pick_out : (pick h s).out = s.out ++ [.pick h.tray] := by
  simp [pick_eq, State.feeding, State.entered]

theorem pick_holdsSame {hs : List LogicalSheet} (hh : s.fetch.schedule = h :: hs) : s.holdsSame (pick h s) := by
  simp only [State.holdsSame, State.heldSheets, State.attachedSheets, pick_fetch, pick_path, pick_store, hh,
    List.tail_cons, List.filterMap_append]
  refine List.Perm.append_right _ ?_
  rw [← List.append_assoc]
  exact List.perm_append_singleton h _

end

/-! ### The re-feed -/

section
variable (e : PathEntry) (s : State)

theorem refeed_fetch : (refeed e s).fetch = s.fetch := by simp

theorem refeed_track : (refeed e s).track = (updEntry e.launch (fun _ => e.refedAt s.time.pos) s).track := by
  simp [refeed]
  rfl

theorem refeed_plan : (refeed e s).plan = { s.plan with staged := some e.launch } := by
  simp [refeed]

theorem refeed_expect :
    (refeed e s).expect =
      { s.expect with
        items :=
          insertItem
            { kind := .edge e.launch .loopout .te, pos := s.time.pos + BitVec.ofNat 24 e.ident.length
              early := s.cfg.trailTol
              late := if s.time.estimate then min (2 * s.cfg.trailTol) 65535 else s.cfg.trailTol }
            (insertItem (s.leading e.launch .reg s.cfg.dLr)
              (insertItem (s.leading e.launch .loopout 0) s.expect.items)) } := by
  have hzero : s.leading e.launch .loopout 0 =
      { kind := .edge e.launch .loopout .le, pos := s.time.pos, early := (s.cfg.station .loopout).early
        late :=
          if s.time.estimate then min (2 * (s.cfg.station .loopout).late) 65535 else (s.cfg.station .loopout).late } := by
    simp [State.leading]
  rw [hzero, refeed, appendHist_eq]
  rfl

theorem refeed_history :
    (refeed e s).history =
      s.history.remembering
        { kind := .refeed (e.blank || e.sheet.isNone), station := none, serial := e.serial, seq := some e.ident.seq
          launch := some e.launch, pos := s.time.pos, runState := s.run.state } := by
  rw [refeed, appendHist_eq]
  have hblank : (e.blank || !e.attached) = (e.blank || e.sheet.isNone) := by
    cases h : e.sheet <;> simp [PathEntry.attached, h]
  simp [PathEntry.refedAt, hblank]

theorem refeed_out : (refeed e s).out = s.out ++ [.refeed] := by
  simp [refeed]

end

/-! ### The release -/

theorem towardStacker_iff (e : PathEntry) :
    e.towardStacker = true ↔ e.sheet ≠ none ∧ (e.leg = .second ∨ e.ident.plex = .simplex) := by
  cases h : e.sheet <;> simp [PathEntry.towardStacker, PathEntry.attached, h]

theorem stackerAllows_iff (s : State) (e : PathEntry) :
    s.stackerAllows e = true ↔
      (e.towardStacker = true → ∀ p, s.plan.lastStacker = some p → p.2 = e.ident.output) := by
  cases h : s.plan.lastStacker <;> cases ht : e.towardStacker <;> simp [State.stackerAllows, h, ht]

/-- The conditions of R62 and R68 for a staged entry. -/
theorem releasable_iff (s : State) (e : PathEntry) :
    s.releasable e = true ↔ e.phase = .atGate ∧ s.plan.gapMet = true ∧ s.run.hold = false ∧
      (s.run.state = .running ∨ s.run.state = .draining) ∧
      (e.sheet ≠ none ∧ (e.leg = .second ∨ e.ident.plex = .simplex) →
        ∀ p, s.plan.lastStacker = some p → p.2 = e.ident.output) := by
  rw [← towardStacker_iff, ← stackerAllows_iff]
  simp [State.releasable, State.moving, and_assoc]

theorem takesSerial_iff (e : PathEntry) : e.takesSerial = true ↔ e.sheet ≠ none ∧ e.leg = .first := by
  cases h : e.sheet <;> simp [PathEntry.takesSerial, PathEntry.attached, h]

theorem tryRelease_of_staged {s : State} {l : Launch} {e : PathEntry} (hs : s.plan.staged = some l)
    (he : s.entry? l = some e) : tryRelease s = if s.releasable e then release e s else s := by
  simp [tryRelease, hs, he]

/-- A position event as it stands in the list (R34). -/
def eventItem (k : ItemKind) (p : Pos) : Item := { kind := k, pos := p, early := 0, late := 0 }

/-- The gap position of a release (R27). -/
def State.gapAfter (s : State) (e : PathEntry) : Pos :=
  s.time.pos + BitVec.ofNat 24 e.ident.length + BitVec.ofNat 24 s.cfg.minGap

/-- The items of a leg's release: XFER LE and DIV, and TOP for an attached entry (R77, R99). -/
def State.legItems (s : State) (e : PathEntry) : List Item :=
  let leg :=
    insertItem (eventItem (.div e.launch) (s.time.pos + BitVec.ofNat 24 s.cfg.dDv))
      (insertItem (s.leading e.launch .xfer s.cfg.dX) s.expect.items)
  if e.attached then insertItem (eventItem (.top e.launch) (s.time.pos + BitVec.ofNat 24 s.cfg.dTop)) leg else leg

/-- The state that a release leaves ahead of its sheet event (R68). -/
def State.gateReleased (s : State) (e : PathEntry) : State :=
  { s with
    out := s.out ++ [.gate]
    track := (updEntry e.launch (fun _ => e.releasedAt s.time.pos s.tally.nextSerial) s).track
    tally := { s.tally with nextSerial := if e.takesSerial then s.tally.nextSerial + 1 else s.tally.nextSerial }
    plan :=
      { s.plan with
        staged := none, gapMet := s.reached (s.gapAfter e), lastRelease := some (s.time.pos, e.ident.length)
        lastStacker := if e.towardStacker then some (e.launch, e.ident.output) else s.plan.lastStacker }
    expect :=
      { s.expect with
        items :=
          if s.reached (s.gapAfter e) then s.legItems e
          else insertItem (eventItem .gap (s.gapAfter e)) (s.legItems e) } }

theorem takeSerial_eq (e : PathEntry) (s : State) :
    takeSerial e s =
      { s with
        tally :=
          { s.tally with nextSerial := if e.takesSerial then s.tally.nextSerial + 1 else s.tally.nextSerial } } := by
  cases h : e.takesSerial <;> simp [takeSerial, h]

theorem armLeg_eq (e : PathEntry) (s : State) :
    armLeg e s.time.pos s = { s with expect := { s.expect with items := s.legItems e } } := by
  cases h : e.attached <;> simp only [armLeg, State.legItems, h] <;> rfl

theorem noteRelease_eq (e : PathEntry) (s : State) :
    noteRelease e s.time.pos s =
      { s with
        plan :=
          { s.plan with
            gapMet := s.reached (s.gapAfter e), lastRelease := some (s.time.pos, e.ident.length)
            lastStacker := if e.towardStacker then some (e.launch, e.ident.output) else s.plan.lastStacker }
        expect :=
          { s.expect with
            items :=
              if s.reached (s.gapAfter e) then s.expect.items
              else insertItem (eventItem .gap (s.gapAfter e)) s.expect.items } } := by
  by_cases h : s.reached (s.gapAfter e) = true
  · exact (if_pos h).trans (by rw [if_pos h, h])
  · exact (if_neg h).trans (by rw [if_neg h, Bool.eq_false_iff.mpr h]; rfl)

theorem release_eq (e : PathEntry) (s : State) :
    release e s =
      sheetEvent .release (.release e.leg) none (e.releasedAt s.time.pos s.tally.nextSerial) s.time.pos
        (s.gateReleased e) := by
  let u : State :=
    { updEntry e.launch (fun _ => e.releasedAt s.time.pos s.tally.nextSerial) (emit .gate s) with
      plan := { s.plan with staged := none } }
  have hu : noteRelease e s.time.pos (armLeg e s.time.pos (takeSerial e u)) = s.gateReleased e := by
    rw [takeSerial_eq]
    exact (congrArg (noteRelease e s.time.pos) (armLeg_eq e _)).trans (noteRelease_eq e _)
  exact congrArg (sheetEvent .release (.release e.leg) none (e.releasedAt s.time.pos s.tally.nextSerial) s.time.pos) hu

theorem attached_iff (e : PathEntry) : e.attached = true ↔ e.sheet ≠ none := Option.isSome_iff_ne_none

/-! ### Sheet events -/

theorem mem_out_of_mem_fireAction {o : Output} {a : WatchAction} {s : State} (h : o ∈ s.out) :
    o ∈ (fireAction a s).out := by
  cases a with
  | pulse =>
    simp only [fireAction, pulseWout]
    split
    · exact h
    · exact List.mem_append_left _ h
  | _ => exact h

theorem mem_out_of_mem_countMatch {o : Output} {u : UnitId} {item : HitItem} {s : State} (h : o ∈ s.out) :
    o ∈ (countMatch u item s).out := by
  rcases countMatch_cases u item s with ⟨-, he⟩ | ⟨p, -, ⟨-, he⟩ | ⟨-, he⟩⟩
  · rwa [he]
  · rw [he]
    simpa using h
  · rw [he, fire_out]
    exact mem_out_of_mem_fireAction h

/-- An offer keeps the outputs of the event (R170). -/
theorem mem_out_of_mem_offer {o : Output} {item : HitItem} {s : State} (h : o ∈ s.out) : o ∈ (offer item s).out := by
  have hfirst (b : Bool) : o ∈ (if b then countMatch .w0 item s else s).out := by
    cases b with
    | true => exact mem_out_of_mem_countMatch h
    | false => exact h
  simp only [offer]
  split
  · exact mem_out_of_mem_countMatch (hfirst _)
  · exact hfirst _

theorem fireAction_frozen {a : WatchAction} {s : State} (h : s.history.frozen = true) :
    (fireAction a s).history.frozen = true := by
  cases a with
  | pulse =>
    simp only [fireAction, pulseWout]
    split
    · exact h
    · exact h
  | freeze => rfl
  | _ => exact h

theorem countMatch_frozen {u : UnitId} {item : HitItem} {s : State} (h : s.history.frozen = true) :
    (countMatch u item s).history.frozen = true := by
  rcases countMatch_cases u item s with ⟨-, he⟩ | ⟨p, -, ⟨-, he⟩ | ⟨-, he⟩⟩
  · rwa [he]
  · rw [he]
    simpa using h
  · have hfire : (fire u p item s).history = (fireAction p.action s).history := by
      simp only [fire]
      split <;> simp
    rw [he, hfire]
    exact fireAction_frozen h

/-- An offer freezes a history or leaves it, and unfreezes none (R170). -/
theorem offer_frozen {item : HitItem} {s : State} (h : s.history.frozen = true) :
    (offer item s).history.frozen = true := by
  have hfirst (b : Bool) : (if b then countMatch .w0 item s else s).history.frozen = true := by
    cases b with
    | true => exact countMatch_frozen h
    | false => exact h
  simp only [offer]
  split
  · exact countMatch_frozen (hfirst _)
  · exact hfirst _

theorem offer_history (item : HitItem) (s : State) :
    (offer item s).history = { s.history with frozen := (offer item s).history.frozen } := by
  obtain ⟨-, -, -, -, -, -, -, -, -, -, hhist, -⟩ := offer_onlyObserved item s
  exact hhist

section
variable {kind : SheetEventKind} {hist : HistKind} {station : Option Station} {e : PathEntry} {pos : Pos} {s : State}

theorem mem_sheetEvent_out {o : Output} (h : o ∈ s.out) : o ∈ (sheetEvent kind hist station e pos s).out :=
  mem_out_of_mem_offer (by simpa using h)

/-- A sheet event enters the history ahead of a FREEZE that it fires (R96, R171). -/
theorem sheetEvent_history :
    (sheetEvent kind hist station e pos s).history =
      { s.history.remembering
          { kind := hist, station := station, serial := e.serial, seq := some e.ident.seq, launch := some e.launch
            pos := pos, runState := s.run.state } with
        frozen := (sheetEvent kind hist station e pos s).history.frozen } := by
  rw [sheetEvent, offer_history, appendHist_eq]

theorem remembering_frozen (h : HistoryUnit) (x : HistEntry) : (h.remembering x).frozen = h.frozen := by
  unfold HistoryUnit.remembering
  split <;> rfl

theorem sheetEvent_frozen (h : s.history.frozen = true) :
    (sheetEvent kind hist station e pos s).history.frozen = true := by
  refine offer_frozen ?_
  rw [appendHist_eq]
  exact (remembering_frozen _ _).trans h

end

end Sys2Proof.Machine

open Sys2Proof Sys2Proof.Machine

/-- Settles O56: permission, the re-feed case ahead of the pick case, and each case's own conditions. -/
theorem plannerLaunches : Obligations.PlannerLaunches := by
  intro s may room back
  have hmay : s.mayLaunch = true ↔ may := mayLaunch_iff s
  have hback : s.refeedCase s.fetch.schedule.head? = true ↔ back := refeedCase_iff s _
  refine ⟨fun h => tryStage_of_not_may fun hm => h (hmay.mp hm), fun l ls e hm hb hl he => ?_,
    fun h hs hm hb hh => ⟨fun hr hel hdup hsim => ?_, fun hno => ?_⟩, fun hm hl hs => ?_, eligible_iff s⟩
  · have hdecision := decision_of_refeedCase (hback.mpr hb) hl he
    have hwait (h : ¬s.refeedReady e = true) : tryStage s = s :=
      tryStage_of_wait (hmay.mpr hm) (hdecision.trans (if_neg h))
    refine ⟨fun hp hroom => ?_, fun hp => hwait fun hr => hp ((refeedReady_iff s e).mp hr).1, fun hsheet hfull =>
      hwait fun hr => ?_⟩
    · have hready : s.refeedReady e = true := (refeedReady_iff s e).mpr ⟨hp, fun hsheet => by
        obtain ⟨x, hx⟩ := Option.ne_none_iff_exists'.mp hsheet
        exact hroom x hx⟩
      rw [tryStage_of_may (hmay.mpr hm), hdecision, if_pos hready]
    · have hno := ((refeedReady_iff s e).mp hr).2 hsheet
      simp [hfull] at hno
  · have hpick : s.pickCase h = true :=
      (pickCase_iff s h).mpr ⟨hr, hel, fun hp => (loopRoom_iff s _).mpr (hdup hp), hsim⟩
    rw [tryStage_of_may (hmay.mpr hm), decision_of_pickCase (fun hc => hb (hback.mp hc)) hh, if_pos hpick]
  · have hpick : ¬s.pickCase h = true := by
      rw [pickCase_iff]
      rintro ⟨hr, hel, -⟩
      rcases hno with hd | hne
      · simp [hr] at hd
      · simp [hel] at hne
    exact tryStage_of_wait (hmay.mpr hm)
      ((decision_of_pickCase (fun hc => hb (hback.mp hc)) hh).trans (if_neg hpick))
  · refine tryStage_of_wait (hmay.mpr hm) ?_
    simp [State.decision, State.refeedCase, hl, hs]

/-- Settles O57, component by component. -/
theorem launchesMoveSheets : Obligations.LaunchesMoveSheets := by
  intro s late leading remembers
  constructor
  · intro h hs hh t duplex
    refine ⟨?_, ⟨newEntry s.plan.counter s.time.pos h, pick_path h s, rfl, rfl, rfl, rfl, rfl, rfl, rfl, rfl, rfl, rfl,
      rfl, rfl⟩, pick_loop h s, pick_plan h s, pick_expect h s, pick_history h s, pick_out h s, pick_holdsSame h s hh⟩
    rw [show t.fetch = _ from pick_fetch h s, hh]
    rfl
  · intro e he hd t
    have htrack : t.track = (updEntry e.launch (fun _ => e.refedAt s.time.pos) s).track := refeed_track e s
    refine ⟨⟨e.refedAt s.time.pos, htrack ▸ mem_updEntry he, rfl, rfl, rfl, rfl, rfl, rfl, rfl, rfl, rfl, ?_⟩,
      htrack ▸ rfl, refeed_plan e s, refeed_expect e s, refeed_history e s, refeed_out e s, ?_⟩
    · simp [PathEntry.refedAt, PathEntry.attached]
    · exact holdsSame_of_updEntry (e' := e.refedAt s.time.pos) hd he rfl (refeed_fetch e s) htrack

/-- Settles O58: the conditions of R62, and the state that a release leaves ahead of its sheet event. -/
theorem gateReleases : Obligations.GateReleases := by
  intro s e l hs hl hd stacker may serial gap event xfer leg imaged
  have hlaunch : e.launch = l := launch_of_entry? hl
  subst hlaunch
  have he : e ∈ s.track.path := mem_of_entry? hl
  have hmay : s.releasable e = true ↔ may := releasable_iff s e
  have htry := tryRelease_of_staged hs hl
  refine ⟨fun h => htry.trans (if_neg fun hr => h (hmay.mp hr)), fun h => ?_⟩
  intro t
  have ht : t = sheetEvent .release (.release e.leg) none (e.releasedAt s.time.pos s.tally.nextSerial) s.time.pos
      (s.gateReleased e) := (htry.trans (if_pos (hmay.mpr h))).trans (release_eq e s)
  have hserial {β : Type} (a b : β) : (if e.takesSerial then a else b) = if serial then a else b :=
    if_congr (takesSerial_iff e) rfl rfl
  have hstacker {β : Type} (a b : β) : (if e.towardStacker then a else b) = if stacker then a else b :=
    if_congr (towardStacker_iff e) rfl rfl
  have himaged : s.legItems e = imaged := if_congr (attached_iff e) rfl rfl
  have hplan : (s.gateReleased e).plan = t.plan := by rw [ht]; simp
  have hexpect : (s.gateReleased e).expect = t.expect := by rw [ht]; simp
  have htally : (s.gateReleased e).tally = t.tally := by rw [ht]; simp
  have htrack : t.track = (updEntry e.launch (fun _ => e.releasedAt s.time.pos s.tally.nextSerial) s).track := by
    rw [ht]
    simp [State.gateReleased]
  have hfetch : t.fetch = s.fetch := by
    rw [ht]
    simp [State.gateReleased]
  refine ⟨?_, ⟨e.releasedAt s.time.pos s.tally.nextSerial, htrack ▸ mem_updEntry he, rfl, rfl, rfl, rfl, rfl, rfl, rfl,
    hserial _ _⟩, ?_, ?_, ?_, ?_, fun hf => ?_, hfetch, htrack ▸ rfl,
    holdsSame_of_updEntry (e' := e.releasedAt s.time.pos s.tally.nextSerial) hd he rfl hfetch htrack, ?_, ?_⟩
  · rw [ht]
    exact mem_sheetEvent_out (by simp [State.gateReleased])
  · rw [← htally, State.gateReleased, hserial]
  · rw [← hplan, State.gateReleased, hstacker]
    rfl
  · rw [← hexpect, State.gateReleased, himaged]
    rfl
  · have hhist := sheetEvent_history (kind := .release) (hist := .release e.leg) (station := none)
      (e := e.releasedAt s.time.pos s.tally.nextSerial) (pos := s.time.pos) (s := s.gateReleased e)
    rw [← ht, show (e.releasedAt s.time.pos s.tally.nextSerial).serial = _ from hserial _ _] at hhist
    exact hhist
  · rw [ht]
    exact sheetEvent_frozen hf
  · rw [ht]
    simp [State.gateReleased]
  · rw [ht]
    simp [State.gateReleased]

end

section
/-! SUPPORT. The watch units (R165 to R170): matching, and what counting and firing leave of each unit and of the rest. -/

namespace Sys2Proof.Machine

/-! ### Matching -/

/-- Two words agree wherever the mask is set. -/
theorem xor_and_eq_zero_iff (x a m : BitVec 32) :
    (x ^^^ a) &&& m = 0 ↔ ∀ i < 32, m.getLsbD i = true → x.getLsbD i = a.getLsbD i := by
  constructor
  · intro h i hi hm
    have hbit := congrArg (fun v => v.getLsbD i) h
    simpa [hm] using hbit
  · intro h
    refine BitVec.eq_of_getLsbD_eq fun i hi => ?_
    cases hm : m.getLsbD i with
    | false => simp [hm]
    | true => simp [h i hi hm]

theorem addressMatches_iff (addr mask : BitVec 32) (b : BusItem) :
    addressMatches addr mask b = true ↔
      ∃ k < b.len, ∀ i < 32, mask.getLsbD i = true →
        (BitVec.ofNat 32 (b.addr + k)).getLsbD i = addr.getLsbD i := by
  simp only [addressMatches, List.any_eq_true, List.mem_range, beq_iff_eq, ← xor_and_eq_zero_iff]

theorem dirMatches_iff (dir : WatchDir) (write : Bool) :
    dirMatches dir write = true ↔ (dir = .read → write = false) ∧ (dir = .write → write = true) := by
  cases dir <;> cases write <;> simp [dirMatches]

theorem matchesItem_bus {p : WatchProgram} {addr mask : BitVec 32} {dir : WatchDir} {cls : Option InitClass}
    (h : p.source = .bus addr mask dir cls) (b : BusItem) :
    matchesItem p (.bus b) = true ↔
      (∃ k < b.len, ∀ i < 32, mask.getLsbD i = true →
        (BitVec.ofNat 32 (b.addr + k)).getLsbD i = addr.getLsbD i) ∧
        (dir = .read → b.write = false) ∧ (dir = .write → b.write = true) ∧ ∀ c, cls = some c → c = b.cls := by
  rw [← addressMatches_iff, ← and_assoc (a := dir = .read → _), ← dirMatches_iff]
  cases cls <;> simp [matchesItem, matchesBus, h, and_assoc]

theorem matchesItem_sheet {p : WatchProgram} {kind : SheetEventKind} {station : Option Station}
    {piece : Option PieceId} (h : p.source = .sheet kind station piece) (e : SheetEvent) :
    matchesItem p (.sheet e) = true ↔
      kind = e.kind ∧ (∀ st, station = some st → e.station = some st) ∧ ∀ x, piece = some x → x = e.piece := by
  cases station <;> cases piece <;> simp [matchesItem, matchesSheet, h, and_assoc]

/-- A unit counts an item as a match while ARMED with a program that matches it (R165). -/
theorem unitMatches_iff (w : WatchUnit) (item : HitItem) :
    unitMatches w item = true ↔ ∃ p, w.state = .armed ∧ w.program = some p ∧ matchesItem p item = true := by
  cases hp : w.program <;> simp [unitMatches, hp]

/-! ### One unit fires -/

theorem setUnit_unit_same (u : UnitId) (x : WatchUnit) (s : State) : (setUnit u x s).watch.unit u = x := by
  cases u <;> rfl

theorem setUnit_unit_ne {u v : UnitId} (h : v ≠ u) (x : WatchUnit) (s : State) :
    (setUnit u x s).watch.unit v = s.watch.unit v := by
  cases u with
  | w0 => cases v with
    | w0 => exact absurd rfl h
    | w1 => rfl
  | w1 => cases v with
    | w0 => rfl
    | w1 => exact absurd rfl h

/-- What a firing's action does (R46, R170). -/
theorem fireAction_eq (a : WatchAction) (s : State) :
    fireAction a s =
      { s with
        run := { s.run with hold := s.run.hold || decide (a = .hold) }
        history := { s.history with frozen := s.history.frozen || decide (a = .freeze) }
        out := if a = .pulse ∧ s.run.state ≠ .unset ∧ .wout ∉ s.out then s.out ++ [.wout] else s.out } := by
  cases a with
  | pulse =>
    by_cases hs : s.run.state = .unset
    · have hset : s.isSet = false := by simp [State.isSet, hs]
      rw [if_neg (fun h => h.2.1 hs)]
      simp [fireAction, pulseWout, hset]
    · by_cases hw : .wout ∈ s.out <;> simp [fireAction, pulseWout, State.isSet, hs, hw, emit]
  | _ => simp [fireAction]

/-- The particulars of a hit of unit `u` by a firing of `p` (R170). -/
def State.hitOf (s : State) (u : UnitId) (p : WatchProgram) (item : HitItem) (held : Bool) : HitParticulars where
  unit := u
  action := p.action
  pos := s.time.pos
  runState := s.run.state
  hold := held
  item := item

/-- A unit with the program `p` as a firing leaves it (R169, R170). -/
def WatchUnit.fired (w : WatchUnit) (p : WatchProgram) (part : HitParticulars) : WatchUnit :=
  afterFiring { w with hits := min (w.hits + 1) 255, first := if w.hits = 0 then some part else w.first } p

theorem fired_of_armed {w : WatchUnit} {p : WatchProgram} (part : HitParticulars) (hs : w.state = .armed)
    (hp : w.program = some p) (hr : w.remaining = 0) :
    w.fired p part =
      { program := some p
        state := if p.action = .pulse then .armed else .spent
        remaining := if p.action = .pulse then p.count else 0
        hits := min (w.hits + 1) 255
        first := if w.hits = 0 then some part else w.first } := by
  unfold WatchUnit.fired afterFiring
  by_cases hpulse : p.action = .pulse <;> simp [hpulse, hs, hp, hr]

theorem makeHit_unit (u : UnitId) (part : HitParticulars) (s : State) :
    (makeHit u part s).watch =
      (setUnit u
        { s.watch.unit u with
          hits := min ((s.watch.unit u).hits + 1) 255
          first := if (s.watch.unit u).hits = 0 then some part else (s.watch.unit u).first } s).watch := by
  simp [makeHit, count255]

theorem armW1_w0 (s : State) : (armW1 s).watch.w0 = s.watch.w0 := by
  unfold armW1
  split <;> rfl

/-- A firing of W0 arms a WAITING W1 with its own count (R169). -/
theorem armW1_of_waiting {s : State} {q : WatchProgram} (hs : s.watch.w1.state = .waiting)
    (hq : s.watch.w1.program = some q) :
    (armW1 s).watch.w1 = { s.watch.w1 with state := .armed, remaining := q.count } := by
  simp [armW1, hs, hq]

theorem armW1_of_not_waiting {s : State} (hs : s.watch.w1.state ≠ .waiting) : armW1 s = s := by
  unfold armW1
  split
  · exact absurd ‹_› hs
  · rfl

theorem armW1_watch_congr {s t : State} (h : t.watch.w1 = s.watch.w1) : (armW1 t).watch.w1 = (armW1 s).watch.w1 := by
  unfold armW1
  rw [h]
  split
  · rfl
  · exact h

section
variable (u : UnitId) (p : WatchProgram) (item : HitItem) (s : State)

/-- A unit's firing, ahead of the arming of W1 (R169, R170). -/
def State.hitBy : State :=
  makeHit u (s.hitOf u p item (s.run.hold || decide (p.action = .hold))) (fireAction p.action s)

theorem fire_eq_setUnit :
    fire u p item s =
      if u = .w0 then armW1 (setUnit u (afterFiring ((s.hitBy u p item).watch.unit u) p) (s.hitBy u p item))
      else setUnit u (afterFiring ((s.hitBy u p item).watch.unit u) p) (s.hitBy u p item) := by
  have hpart : s.hitOf u p item (s.run.hold || decide (p.action = .hold)) =
      { unit := u, action := p.action, pos := (fireAction p.action s).time.pos
        runState := (fireAction p.action s).run.state, hold := (fireAction p.action s).run.hold, item := item } := by
    rw [fireAction_eq]
    rfl
  rw [fire, State.hitBy, hpart]

theorem hitBy_unit_self :
    (s.hitBy u p item).watch.unit u =
      { s.watch.unit u with
        hits := min ((s.watch.unit u).hits + 1) 255
        first :=
          if (s.watch.unit u).hits = 0 then some (s.hitOf u p item (s.run.hold || decide (p.action = .hold)))
          else (s.watch.unit u).first } := by
  rw [State.hitBy, makeHit_unit, setUnit_unit_same, fireAction_eq]

theorem hitBy_unit_ne {v : UnitId} (h : v ≠ u) : (s.hitBy u p item).watch.unit v = s.watch.unit v := by
  rw [State.hitBy, makeHit_unit, setUnit_unit_ne h, fireAction_eq]

theorem fire_unit_self :
    (fire u p item s).watch.unit u =
      (s.watch.unit u).fired p (s.hitOf u p item (s.run.hold || decide (p.action = .hold))) := by
  have hset : (setUnit u (afterFiring ((s.hitBy u p item).watch.unit u) p) (s.hitBy u p item)).watch.unit u =
      (s.watch.unit u).fired p (s.hitOf u p item (s.run.hold || decide (p.action = .hold))) := by
    rw [setUnit_unit_same, hitBy_unit_self]
    rfl
  rw [fire_eq_setUnit]
  cases u with
  | w0 => exact (armW1_w0 _).trans hset
  | w1 => exact hset

theorem fire_w1_w0 : (fire .w1 p item s).watch.w0 = s.watch.w0 := by
  rw [fire_eq_setUnit, if_neg (by decide)]
  exact hitBy_unit_ne .w1 p item s (v := .w0) (by decide)

theorem fire_w0_w1 : (fire .w0 p item s).watch.w1 = (armW1 s).watch.w1 := by
  rw [fire_eq_setUnit, if_pos rfl]
  exact armW1_watch_congr (hitBy_unit_ne .w0 p item s (v := .w1) (by decide))

theorem fire_hold : (fire u p item s).run.hold = (s.run.hold || decide (p.action = .hold)) := by
  have hset : (s.hitBy u p item).run.hold = (s.run.hold || decide (p.action = .hold)) := by
    rw [State.hitBy, fireAction_eq]
    simp
  rw [fire_eq_setUnit]
  split <;> simpa using hset

end

/-! ### A firing and the rest of the controller -/

/-- A queued record that is no open WATCH_HIT of the unit takes no fold of its hit (R170). -/
theorem foldHit_refuses {u : UnitId} {q : Queued}
    (h : ∀ r, q = { record := .watchHit r, fixed := false } → r.particulars.unit ≠ u) :
    q.fixed = true ∨ foldHit u q.record = none := by
  obtain ⟨record, fixed⟩ := q
  cases fixed with
  | true => exact .inl rfl
  | false =>
    refine .inr ?_
    cases record with
    | watchHit r => exact if_neg (h r rfl)
    | _ => rfl

theorem foldHit_of_unit {u : UnitId} {r : WatchHitRec} (h : r.particulars.unit = u) :
    foldHit u (.watchHit r) = some (.watchHit { r with hits := min (r.hits + 1) 255 }) :=
  if_pos h

/-- What a firing leaves: the action's effect, the unit's record in the queue, and the units (R169, R170). -/
theorem fire_eq {u : UnitId} {p : WatchProgram} {item : HitItem} {s : State} {queue : List Queued}
    (hq : ∀ t : State, t.report = s.report →
      handOrFold (foldHit u)
          (.watchHit
            { particulars := s.hitOf u p item (s.run.hold || decide (p.action = .hold)), hits := 1, carried := false }) t =
        { t with report := { s.report with queue := queue } }) :
    fire u p item s =
      { s with
        run := { s.run with hold := s.run.hold || decide (p.action = .hold) }
        history := { s.history with frozen := s.history.frozen || decide (p.action = .freeze) }
        out := if p.action = .pulse ∧ s.run.state ≠ .unset ∧ .wout ∉ s.out then s.out ++ [.wout] else s.out
        watch := (fire u p item s).watch
        report := { s.report with queue := queue } } := by
  have hhit : { s.hitBy u p item with watch := (fire u p item s).watch } =
      { fireAction p.action s with
        report := { s.report with queue := queue }
        watch := (fire u p item s).watch } := by
    rw [State.hitBy, makeHit, hq _ (by simp)]
    cases u <;> rfl
  have hset : fire u p item s = { s.hitBy u p item with watch := (fire u p item s).watch } := by
    apply State.ext <;> rw [fire_eq_setUnit] <;> split <;> simp
  rw [hset, hhit, fireAction_eq]

/-! ### Both units -/

/-- Unit `u` counts the item as a match of its program `p` (R165). -/
def State.counts (s : State) (item : HitItem) (u : UnitId) (p : WatchProgram) : Prop :=
  (s.watch.unit u).state = .armed ∧ (s.watch.unit u).program = some p ∧ matchesItem p item = true

/-- Unit `u` fires on the item (R169). -/
def State.fires (s : State) (item : HitItem) (u : UnitId) (p : WatchProgram) : Prop :=
  s.counts item u p ∧ (s.watch.unit u).remaining = 0

theorem unitMatches_unit_iff (s : State) (item : HitItem) (u : UnitId) :
    unitMatches (s.watch.unit u) item = true ↔ ∃ p, s.counts item u p :=
  unitMatches_iff _ item

/-- The state in which W1 takes its turn on an item: W0 has had its own (log entry 4). -/
def State.afterW0 (s : State) (item : HitItem) : State :=
  if unitMatches s.watch.w0 item then countMatch .w0 item s else s

section
variable {s : State} {item : HitItem} {p : WatchProgram}

theorem countMatch_of_remaining {u : UnitId} (hp : (s.watch.unit u).program = some p)
    (hr : 0 < (s.watch.unit u).remaining) :
    countMatch u item s =
      setUnit u { s.watch.unit u with remaining := (s.watch.unit u).remaining - 1 } s := by
  simp [countMatch, hp, hr]

theorem countMatch_of_zero {u : UnitId} (hp : (s.watch.unit u).program = some p)
    (hr : (s.watch.unit u).remaining = 0) : countMatch u item s = fire u p item s := by
  simp [countMatch, hp, hr]

theorem afterW0_of_quiet (h : ∀ p, ¬s.counts item .w0 p) : s.afterW0 item = s :=
  if_neg fun hm => not_exists.mpr h ((unitMatches_unit_iff s item .w0).mp hm)

theorem afterW0_of_counts (h : s.counts item .w0 p) : s.afterW0 item = countMatch .w0 item s :=
  if_pos ((unitMatches_unit_iff s item .w0).mpr ⟨p, h⟩)

theorem afterW0_of_fires (h : s.fires item .w0 p) : s.afterW0 item = fire .w0 p item s :=
  (afterW0_of_counts h.1).trans (countMatch_of_zero h.1.2.1 h.2)

/-- W0's turn is nothing, a count, or a firing. -/
theorem afterW0_cases (s : State) (item : HitItem) :
    ((∀ p, ¬s.counts item .w0 p) ∧ s.afterW0 item = s) ∨
    (∃ p, s.counts item .w0 p ∧ 0 < s.watch.w0.remaining ∧
      s.afterW0 item = setUnit .w0 { s.watch.w0 with remaining := s.watch.w0.remaining - 1 } s) ∨
    ∃ p, s.fires item .w0 p ∧ s.afterW0 item = fire .w0 p item s := by
  by_cases h : ∃ p, s.counts item .w0 p
  · obtain ⟨p, hp⟩ := h
    rcases Nat.eq_zero_or_pos s.watch.w0.remaining with hr | hr
    · exact .inr (.inr ⟨p, ⟨hp, hr⟩, afterW0_of_fires ⟨hp, hr⟩⟩)
    · exact .inr (.inl ⟨p, hp, hr, (afterW0_of_counts hp).trans (countMatch_of_remaining hp.2.1 hr)⟩)
  · exact .inl ⟨not_exists.mp h, afterW0_of_quiet (not_exists.mp h)⟩

theorem counts_unique {u : UnitId} {q : WatchProgram} (hp : s.counts item u p) (hq : s.counts item u q) : q = p :=
  Option.some.inj (hq.2.1.symm.trans hp.2.1)

/-- W0's turn leaves a W1 that it does not arm (R169). -/
theorem afterW0_w1 (h : s.watch.w1.state = .waiting → ∀ p, ¬s.fires item .w0 p) :
    (s.afterW0 item).watch.w1 = s.watch.w1 := by
  rcases afterW0_cases s item with ⟨-, he⟩ | ⟨p, -, -, he⟩ | ⟨p, hf, he⟩
  · rw [he]
  · rw [he, setUnit_w0_w1]
  · rw [he, fire_w0_w1, armW1_of_not_waiting fun hw => h hw p hf]

theorem afterW0_w1_of_counts (h : s.counts item .w1 p) :
    (s.afterW0 item).watch.unit .w1 = s.watch.unit .w1 :=
  afterW0_w1 fun hw => absurd (h.1.symm.trans hw) (by decide)

/-- The hold latch as W1's hit shows it (R46, log entry 4). -/
theorem afterW0_hold (s : State) (item : HitItem) :
    (s.afterW0 item).run.hold = true ↔
      s.run.hold = true ∨ ∃ q, s.fires item .w0 q ∧ q.action = .hold := by
  rcases afterW0_cases s item with ⟨hno, he⟩ | ⟨p, hc, hr, he⟩ | ⟨p, hf, he⟩
  · rw [he]
    exact ⟨.inl, fun h => h.resolve_right fun ⟨q, hq, _⟩ => hno q hq.1⟩
  · rw [he]
    have hnone : ¬∃ q, s.fires item .w0 q ∧ q.action = .hold := fun ⟨q, hq, _⟩ => absurd hq.2 (Nat.pos_iff_ne_zero.mp hr)
    simp [hnone]
  · rw [he, fire_hold, Bool.or_eq_true, decide_eq_true_eq]
    refine or_congr_right ⟨fun ha => ⟨p, hf, ha⟩, fun ⟨q, hq, ha⟩ => ?_⟩
    exact counts_unique hf.1 hq.1 ▸ ha

theorem afterW0_hitOf (u : UnitId) (p : WatchProgram) (held : Bool) :
    (s.afterW0 item).hitOf u p item held = s.hitOf u p item held := by
  have htime : (s.afterW0 item).time = s.time ∧ (s.afterW0 item).run.state = s.run.state := by
    rcases afterW0_cases s item with ⟨-, he⟩ | ⟨p, -, -, he⟩ | ⟨p, -, he⟩ <;> rw [he] <;> simp
  rw [State.hitOf, State.hitOf, htime.1, htime.2]

theorem offer_of_w1_quiet (h : ∀ p, ¬s.counts item .w1 p) : offer item s = s.afterW0 item :=
  if_neg fun hm => not_exists.mpr h ((unitMatches_unit_iff s item .w1).mp hm)

theorem offer_of_w1_counts (h : s.counts item .w1 p) : offer item s = countMatch .w1 item (s.afterW0 item) :=
  if_pos ((unitMatches_unit_iff s item .w1).mpr ⟨p, h⟩)

theorem offer_of_w1_remaining (h : s.counts item .w1 p) (hr : 0 < s.watch.w1.remaining) :
    offer item s =
      setUnit .w1 { s.watch.w1 with remaining := s.watch.w1.remaining - 1 } (s.afterW0 item) := by
  have hw1 := afterW0_w1_of_counts h
  have hcount := countMatch_of_remaining (u := .w1) (item := item) (s := s.afterW0 item) (p := p)
    ((congrArg WatchUnit.program hw1).trans h.2.1) (hr.trans_eq (congrArg WatchUnit.remaining hw1).symm)
  rw [offer_of_w1_counts h, hcount, hw1]
  rfl

theorem offer_of_w1_fires (h : s.fires item .w1 p) : offer item s = fire .w1 p item (s.afterW0 item) := by
  have hw1 := afterW0_w1_of_counts h.1
  exact (offer_of_w1_counts h.1).trans
    (countMatch_of_zero ((congrArg WatchUnit.program hw1).trans h.1.2.1)
      ((congrArg WatchUnit.remaining hw1).trans h.2))

/-- W1's turn leaves W0 as W0's own turn has left it (R169). -/
theorem offer_w0 (item : HitItem) (s : State) : (offer item s).watch.w0 = (s.afterW0 item).watch.w0 := by
  by_cases h : ∃ p, s.counts item .w1 p
  · obtain ⟨p, hp⟩ := h
    rcases Nat.eq_zero_or_pos s.watch.w1.remaining with hr | hr
    · rw [offer_of_w1_fires ⟨hp, hr⟩, fire_w1_w0]
    · rw [offer_of_w1_remaining hp hr, setUnit_w1_w0]
  · rw [offer_of_w1_quiet (not_exists.mp h)]

/-- A unit that counts nothing, and is not armed by the other's firing, is left as it is. -/
theorem offer_unit_of_quiet {u : UnitId} (hq : ∀ p, ¬s.counts item u p)
    (hw : u = .w1 → s.watch.w1.state = .waiting → ∀ p, ¬s.fires item .w0 p) :
    (offer item s).watch.unit u = s.watch.unit u := by
  cases u with
  | w0 => exact (offer_w0 item s).trans (congrArg (fun t => t.watch.w0) (afterW0_of_quiet hq))
  | w1 => exact (congrArg (fun t => t.watch.w1) (offer_of_w1_quiet hq)).trans (afterW0_w1 (hw rfl))

theorem offer_unit_of_remaining {u : UnitId} (hc : s.counts item u p) (hr : 0 < (s.watch.unit u).remaining) :
    (offer item s).watch.unit u =
      { s.watch.unit u with remaining := (s.watch.unit u).remaining - 1 } := by
  cases u with
  | w0 =>
    refine (offer_w0 item s).trans ?_
    rw [afterW0_of_counts hc, countMatch_of_remaining hc.2.1 hr]
    rfl
  | w1 => exact (congrArg (fun t => t.watch.w1) (offer_of_w1_remaining hc hr)).trans rfl

/-- A unit that fires, with the hold latch as its hit shows it (R169, R170). -/
theorem offer_unit_of_fires {u : UnitId} {held : Bool} (hf : s.fires item u p)
    (hheld : held = true ↔
      s.run.hold = true ∨ p.action = .hold ∨ u = .w1 ∧ ∃ q, s.fires item .w0 q ∧ q.action = .hold) :
    (offer item s).watch.unit u = (s.watch.unit u).fired p (s.hitOf u p item held) := by
  cases u with
  | w0 =>
    have hh : (s.run.hold || decide (p.action = .hold)) = held := by
      rw [Bool.eq_iff_iff, hheld]
      simp
    refine (offer_w0 item s).trans ?_
    rw [afterW0_of_fires hf]
    exact hh ▸ fire_unit_self .w0 p item s
  | w1 =>
    have hh : ((s.afterW0 item).run.hold || decide (p.action = .hold)) = held := by
      rw [Bool.eq_iff_iff, hheld, Bool.or_eq_true, afterW0_hold, decide_eq_true_eq]
      simp only [true_and]
      exact or_assoc.trans (or_congr_right or_comm)
    have hself := fire_unit_self .w1 p item (s.afterW0 item)
    rw [hh, afterW0_hitOf, afterW0_w1_of_counts hf.1] at hself
    exact (congrArg (fun t => t.watch.w1) (offer_of_w1_fires hf)).trans hself

/-- Without a firing an offer changes nothing but the units (R169). -/
theorem offer_of_no_firing (h : ∀ u p, ¬s.fires item u p) : offer item s = { s with watch := (offer item s).watch } := by
  have hafter : s.afterW0 item = { s with watch := (s.afterW0 item).watch } := by
    rcases afterW0_cases s item with ⟨-, he⟩ | ⟨p, -, -, he⟩ | ⟨p, hf, -⟩
    · rw [he]
    · rw [he]
      rfl
    · exact absurd hf (h .w0 p)
  by_cases hc : ∃ p, s.counts item .w1 p
  · obtain ⟨p, hp⟩ := hc
    have hr : 0 < s.watch.w1.remaining := Nat.pos_of_ne_zero fun hz => h .w1 p ⟨hp, hz⟩
    rw [offer_of_w1_remaining hp hr, hafter]
    rfl
  · rw [offer_of_w1_quiet (not_exists.mp hc)]
    exact hafter

/-- A firing while the other unit counts nothing is the whole effect of the offer. -/
theorem offer_of_one_firing {u : UnitId} (hf : s.fires item u p) (hq : ∀ v, v ≠ u → ∀ q, ¬s.counts item v q) :
    offer item s = fire u p item s := by
  cases u with
  | w0 => exact (offer_of_w1_quiet (hq .w1 (by decide))).trans (afterW0_of_fires hf)
  | w1 => rw [offer_of_w1_fires hf, afterW0_of_quiet (hq .w0 (by decide))]

end

end Sys2Proof.Machine

open Sys2Proof Sys2Proof.Machine

/-- Settles O59: matching, each unit's turn, and the effect of a single firing. -/
theorem watchUnitsCount : Obligations.WatchUnitsCount := by
  refine ⟨fun p b e => ⟨fun addr mask dir cls h => ⟨?_, matchesItem_bus h b⟩,
    fun kind station piece h => ⟨?_, matchesItem_sheet h e⟩⟩, ?_⟩
  · simp [matchesItem, matchesSheet, h]
  · simp [matchesItem, matchesBus, h]
  · intro s item t counts fires quiet hit
    refine ⟨fun u hq hw => offer_unit_of_quiet hq hw, fun p q hf hw hq => ?_,
      fun u p hc hr => offer_unit_of_remaining hc hr, fun u p held hf hheld => ?_, fun h => offer_of_no_firing h, ?_⟩
    · have hquiet : ∀ q, ¬s.counts item .w1 q := fun q hc => absurd (hc.1.symm.trans hw) (by decide)
      refine (congrArg (fun t => t.watch.w1) ((offer_of_w1_quiet hquiet).trans (afterW0_of_fires hf))).trans ?_
      exact (fire_w0_w1 p item s).trans (armW1_of_waiting hw hq)
    · exact (offer_unit_of_fires hf hheld).trans (fired_of_armed _ hf.1.1 hf.1.2.1 hf.2)
    · intro u p hf hq held acted
      have ht : t = fire u p item s := offer_of_one_firing hf hq
      have hacted {queue : List Queued} (h : ∀ w : State, w.report = s.report →
          handOrFold (foldHit u) (.watchHit { particulars := hit u p held, hits := 1, carried := false }) w =
            { w with report := { s.report with queue := queue } }) : t = acted queue := by
        have hfire := fire_eq h
        rw [← ht] at hfire
        exact hfire
      refine ⟨fun hno => hacted fun w hw => ?_, fun qs rs r hs hr hno => hacted fun w hw => ?_⟩
      · rw [handOrFold_of_closed fun q hq => foldHit_refuses (hno q (hw ▸ hq)), handRecord, hw]
      · rw [handOrFold_of_open (hw ▸ hs) (fun q hm => foldHit_refuses (hno q hm)) (foldHit_of_unit hr), hw]

end

section
/-! SUPPORT. Edges: the claimant of an edge and what becomes of it (R23, R31, R32), and the tracker's part of a met edge (R76
to R83, R93 to R96). -/

namespace Sys2Proof.Machine

/-! ### The first claimant -/

theorem mem_of_firstClaimant {l : List Item} {it : Item} (h : firstClaimant l = some it) : it ∈ l := by
  induction l generalizing it with
  | nil => simp [firstClaimant] at h
  | cons x xs ih =>
    cases hy : firstClaimant xs with
    | none =>
      simp only [firstClaimant, hy, Option.some.injEq] at h
      exact h ▸ List.mem_cons_self
    | some y =>
      simp only [firstClaimant, hy] at h
      split at h
      · exact Option.some.inj h ▸ List.mem_cons_of_mem _ (ih hy)
      · exact Option.some.inj h ▸ List.mem_cons_self

/-- A claimant that claims before every other is the first (R31). -/
theorem firstClaimant_of_first {l : List Item} {it : Item} (hmem : it ∈ l)
    (h : ∀ j ∈ l, j ≠ it → claimsBefore it j = true ∧ claimsBefore j it = false) : firstClaimant l = some it := by
  induction l with
  | nil => simp at hmem
  | cons x xs ih =>
    rw [List.forall_mem_cons] at h
    obtain ⟨hx, hxs⟩ := h
    by_cases hin : it ∈ xs
    · rw [firstClaimant, ih hin hxs]
      by_cases hxi : x = it
      · simp [hxi]
      · simp [(hx hxi).1]
    · obtain rfl : it = x := (List.mem_cons.mp hmem).resolve_right hin
      cases hy : firstClaimant xs with
      | none => simp [firstClaimant, hy]
      | some y =>
        have hym := mem_of_firstClaimant hy
        have hyi : y ≠ it := fun h => hin (h ▸ hym)
        simp [firstClaimant, hy, (hxs y hym hyi).2]

/-- The half-range rule is asymmetric: of two different positions one is before the other (R22). -/
theorem half_range_opposite {a b : Pos} (hne : a ≠ b) (h : (a - b).toNat < 8388608) : ¬(b - a).toNat < 8388608 := by
  have hab : a.toNat ≠ b.toNat := fun h => hne (BitVec.eq_of_toNat_eq h)
  rw [BitVec.toNat_sub] at h ⊢
  have ha := a.isLt
  have hb := b.isLt
  omega

theorem launch_range_opposite {a b : Launch} (h1 : 1 ≤ (a - b).toNat) (h2 : (a - b).toNat ≤ 32767) :
    ¬(1 ≤ (b - a).toNat ∧ (b - a).toNat ≤ 32767) := by
  rw [BitVec.toNat_sub] at h1 h2 ⊢
  have ha := a.isLt
  have hb := b.isLt
  omega

/-- The window that opens earlier claims first (R31). -/
theorem claimsBefore_of_opens {it j : Item} (hne : j.opens ≠ it.opens)
    (h : (j.opens - it.opens).toNat < 8388608) : claimsBefore it j = true ∧ claimsBefore j it = false := by
  have hopp := half_range_opposite hne h
  have hij : before it.opens j.opens = true := congrArg not (decide_eq_false hopp)
  have hji : before j.opens it.opens = false := congrArg not (decide_eq_true h)
  exact ⟨(if_neg hne.symm).trans hij, (if_neg hne).trans hji⟩

/-- At equal opening the earlier launch number claims first (R31). -/
theorem claimsBefore_of_launch {it j : Item} {st : Station} {e : Edge} {la lj : Launch} (ho : j.opens = it.opens)
    (hi : it.kind = .edge la st e) (hj : j.kind = .edge lj st e) (h1 : 1 ≤ (lj - la).toNat)
    (h2 : (lj - la).toNat ≤ 32767) : claimsBefore it j = true ∧ claimsBefore j it = false := by
  have hopp := launch_range_opposite h1 h2
  have hij : claimsBefore it j = earlierLaunch la lj := by rw [claimsBefore, if_pos ho.symm, hi, hj]; rfl
  have hji : claimsBefore j it = earlierLaunch lj la := by rw [claimsBefore, if_pos ho, hi, hj]; rfl
  rw [hij, hji, earlierLaunch, earlierLaunch, ← Bool.decide_and, ← Bool.decide_and]
  exact ⟨decide_eq_true ⟨h1, h2⟩, decide_eq_false hopp⟩

/-! ### What becomes of an edge -/

theorem evaluate_of_met {estimate : Bool} {it : Item} {q : Pos}
    (h : it.inWindow q = true ∨ before q it.opens = true ∧ estimate = true) : evaluate estimate it q = .met := by
  by_cases hw : it.inWindow q = true
  · exact if_pos hw
  · obtain ⟨hb, he⟩ := h.resolve_left hw
    simp [evaluate, hw, hb, he]

theorem evaluate_of_early {it : Item} {q : Pos} (hw : it.inWindow q = false) (hb : before q it.opens = true) :
    evaluate false it q = .tooEarly := by
  simp [evaluate, hw, hb]

section
variable {e : Edge} {st : Station} {it : Item} {x : PathEntry} {q : Pos} {s : State}

theorem offerEdge_of_still (h : s.moving = false) : offerEdge e st q s = s := by
  simp [offerEdge, h]

theorem offerEdge_of_unclaimed (hm : s.moving = true) (hc : s.expect.items.filter (Item.awaits st e) = []) :
    (e = .le → offerEdge e st q s = stop .stray (some st) q none none s) ∧ (e = .te → offerEdge e st q s = s) := by
  cases e <;> simp [offerEdge, hm, hc, firstClaimant]

theorem offerEdge_of_claimed {la : Launch} (hm : s.moving = true)
    (hc : firstClaimant (s.expect.items.filter (Item.awaits st e)) = some it) (hk : it.kind = .edge la st e)
    (hx : s.entry? la = some x) : offerEdge e st q s = matchEdge e st it x q s := by
  simp [offerEdge, hm, hc, hk, ItemKind.launch?, hx]

theorem matchEdge_of_met (h : evaluate s.time.estimate it q = .met) :
    (e = .le → matchEdge e st it x q s = metLE x st q (dropItem it s)) ∧
      (e = .te → matchEdge e st it x q s = metTE x st q (dropItem it s)) := by
  cases e <;> simp [matchEdge, h]

theorem matchEdge_of_early (h : evaluate s.time.estimate it q = .tooEarly) (hx : s.entry? x.launch = some x) :
    matchEdge e st it x q s =
      stop (match e with | .le => .early | .te => .short) (some st) q (some x.launch) x.serial s := by
  cases e <;> simp [matchEdge, h, pathFault, hx]

end

/-- A pending change whose debounce has passed delivers its edge to the stable level's new state (R29). -/
theorem exec_debounceCompletion_of_due {s : State} {l : Fin 16} {st : Station} {ch : PendingChange}
    (hst : s.stationOf l = some st) (hch : s.expect.lines[l].change = some ch)
    (hdue : s.reached (plus ch.stamp s.cfg.debounce) = true) :
    exec (.debounceCompletion l) s =
      .next (settle (offerEdge (if ch.level then .le else .te) st ch.stamp
        { s with
          out := []
          expect := { s.expect with lines := s.expect.lines.set l { stable := ch.level, change := none } } })) := by
  have hd : s.changeDue l = true := by
    rw [State.changeDue, hst, hch]
    exact hdue
  change execDebounceCompletion l s = _
  rw [execDebounceCompletion, hst, hch]
  exact congrArg _ (if_pos hd)

/-! ### The tracker's part of a met edge -/

/-- A leg's LE that is armed joins the list, or expires at once unless its expiry is held (R35, R77). -/
theorem armLegLE_outcomes {u : State} {l : Launch} {st : Station} {p : Pos} {i : Item}
    (hi : i =
      { kind := .edge l st .le, pos := p, early := (u.cfg.station st).early
        late := if u.time.estimate then widened (u.cfg.station st).late else (u.cfg.station st).late })
    (h : ∀ j ∈ u.expect.items, j.kind ≠ .edge l st .le) :
    ((u.reached i.due = false ∨ u.holdsExpiry i = true) → armLegLE l st p u = addItem i u) ∧
      (u.reached i.due = true → u.holdsExpiry i = false →
        armLegLE l st p u = stop .late (some st) i.due (some l) ((u.entry? l).bind PathEntry.serial) u) := by
  rcases armLegLE_cases u l st p i hi h with ⟨hdue, harm⟩ | ⟨hdue, harm⟩
  · exact ⟨fun _ => harm, fun hr hh => absurd ((itemDue_iff u i).mpr ⟨hr, hh⟩) (Bool.eq_false_iff.mp hdue)⟩
  · obtain ⟨hr, hh⟩ := (itemDue_iff u i).mp hdue
    exact ⟨fun h' => absurd h' (by simp [hr, hh]), fun _ _ => harm⟩

section
variable {e : PathEntry} {st : Station} {q : Pos} {s : State}

theorem onLeg_of_released {r : Pos} (h : e.releasePos = some r) (d : Nat) : e.onLeg d = plus r d := by
  rw [PathEntry.onLeg, h, Option.getD_some]

/-- The entry at the fuser: its flag, and its own trailing edge expected (R77). -/
def State.fused (e : PathEntry) (q : Pos) (s : State) : State :=
  armTE e.launch .fuse (plus q e.ident.length) (updEntry e.launch (fun x => { x with fuseReached := true }) s)

theorem trackLE_fuse_of_undecided (h : e.divTaken = false) : trackLE e .fuse q s = s.fused e q := by
  simp [trackLE, State.fused, h]

theorem trackLE_fuse_of_route {r : Route} (h : e.divTaken = true) (hr : e.route = some r) :
    trackLE e .fuse q s = armTerminal e r (s.fused e q) := by
  simp [trackLE, State.fused, h, hr]

theorem leaveLoop_head {n : Nat} {ls : List Launch} (h : s.track.loop = e.launch :: ls) :
    leaveLoop e.launch n s =
      { s with
        track := { s.track with loop := ls }
        plan := { s.plan with commitment := s.plan.commitment - (n + s.cfg.loopGap) } } := by
  simp [leaveLoop, h]

/-- The trailing edge of a detached entry at an exit reports it and takes it from the path (R93, R94). -/
theorem trackTE_exit (hst : st ∈ [Station.stka, .stkb, .purge]) (h : e.sheet = none) :
    trackTE e st q s = spoiledExit e st q s := by
  have ha : e.attached = false := by simp [PathEntry.attached, h]
  simp only [List.mem_cons, List.not_mem_nil, or_false] at hst
  rcases hst with rfl | rfl | rfl
  · simp [trackTE, exitStacker, h, stackerStation]
  · simp [trackTE, exitStacker, h, stackerStation]
  · simp [trackTE, ha]

end

end Sys2Proof.Machine

open Sys2Proof Sys2Proof.Machine

/-- Settles O50: the edge is discarded, unclaimed, met or early; and a claimant ahead of every other is the first. -/
theorem debounceCompletes : Obligations.DebounceCompletes := by
  constructor
  · intro s l st ch hst hch hdue d e claimants answers
    have hexec := exec_debounceCompletion_of_due hst hch hdue
    have answer {t : State} (h : offerEdge e st ch.stamp d = t) : answers t :=
      hexec.trans (next_settle_congr h)
    refine ⟨fun hm => answer (offerEdge_of_still hm), fun hm hc => ?_, ?_⟩
    · obtain ⟨hle, hte⟩ := offerEdge_of_unclaimed (q := ch.stamp) (s := d) hm hc
      exact ⟨fun he => answer (hle he), fun he => answer (hte he)⟩
    · intro it x la hm hc hk hx met
      have hclaimed := offerEdge_of_claimed (q := ch.stamp) (s := d) hm hc hk hx
      refine ⟨fun h => ?_, fun hw hb he => ?_⟩
      · obtain ⟨hle, hte⟩ := matchEdge_of_met (e := e) (st := st) (x := x) (s := d) (evaluate_of_met h)
        exact ⟨fun he => answer (hclaimed.trans (hle he)), fun he => answer (hclaimed.trans (hte he))⟩
      · have hevaluate : evaluate d.time.estimate it ch.stamp = .tooEarly := by
          rw [show d.time.estimate = false from he]
          exact evaluate_of_early hw hb
        rw [← launch_of_entry? hx] at hx
        exact answer (hclaimed.trans (matchEdge_of_early hevaluate hx))
  · intro claimants it st e la hmem hk h
    refine firstClaimant_of_first hmem fun j hj hne => ?_
    rcases h j hj hne with ⟨ho, hr⟩ | ⟨ho, lj, hkj, h1, h2⟩
    · exact claimsBefore_of_opens ho hr
    · exact claimsBefore_of_launch ho hk hkj h1 h2

/-- Settles O54, station by station: the tracker's part of a leading and of a trailing edge. -/
theorem metEdgesAdvanceEntries : Obligations.MetEdgesAdvanceEntries := by
  intro s e q event late entered phased expects tail arms fused terminal
  refine ⟨fun st => ⟨rfl, rfl⟩, fun h => if_pos h, ?_, rfl, rfl, rfl, rfl, trackLE_fuse_of_undecided, ?_, ?_, ?_, ?_, ?_, ?_⟩
  · intro r hr
    have htrack : trackLE e .xfer q s = armLegLE e.launch .fuse (plus r s.cfg.dF) s := by
      rw [← onLeg_of_released hr]; rfl
    rw [htrack]
    exact armLegLE_outcomes rfl
  · intro r d hd hr hroute
    have htrack : trackLE e .fuse q s = armLegLE e.launch (terminal d).1 (plus r (terminal d).2) fused := by
      rw [trackLE_fuse_of_route hd hroute, armTerminal, onLeg_of_released hr]
      cases d <;> rfl
    rw [htrack]
    exact armLegLE_outcomes rfl
  · intro st hst
    simp only [List.mem_cons, List.not_mem_nil, or_false] at hst
    rcases hst with rfl | rfl | rfl | rfl | rfl <;> rfl
  · intro hp p
    have htrack : trackTE e .loopin q s = armPark e.launch p s := if_pos hp
    rw [htrack]
    exact ⟨fun h => if_pos h, fun h => if_neg (Bool.eq_false_iff.mp h)⟩
  · intro ls hl
    exact leaveLoop_head hl
  · intro st hst
    simp only [List.mem_cons, List.not_mem_nil, or_false] at hst
    rcases hst with rfl | rfl | rfl | rfl | rfl | rfl | rfl <;> rfl
  · intro st hst reason hs hr t
    have ht : t = leavePath e (reportSpoiled e reason (some st) q s) := by
      rw [show t = trackTE e st q s from rfl, trackTE_exit hst hs, spoiledExit, hr, Option.getD_some]
    obtain ⟨htrack, hexpect⟩ := leavePath_eq e (reportSpoiled e reason (some st) q s)
    rw [ht]
    refine ⟨?_, ?_, ?_, ?_, ?_, ?_, ?_⟩
    · have hqueue : (leavePath e (reportSpoiled e reason (some st) q s)).report.queue =
          (reportSpoiled e reason (some st) q s).report.queue := by simp
      exact (congrArg withoutHits hqueue).trans (reportSpoiled_withoutHits e reason (some st) q s)
    · rw [htrack]; simp
    · rw [hexpect]; simp
    · simp
    · simp
    · simp
    · have hhistory : (leavePath e (reportSpoiled e reason (some st) q s)).history =
          (reportSpoiled e reason (some st) q s).history := by simp
      rw [hhistory, reportSpoiled, sheetEvent_history]
      rfl

end

section
/-! SUPPORT. The way of the logical sheets when entries are detached: the schedule queue in order of sequence (R16, R113),
what detaching a list of entries leaves (R112), and the steps of an underrun and of a cancel (R114, R124 to R126). -/

namespace Sys2Proof.Machine

/-! ### The schedule queue in order of sequence -/

/-- Within the bound of R13 behind the counter, the half-range rule orders sequences by their distance to the counter. -/
theorem later_iff_behind {c a b : Seq} (ha : 1 ≤ (c - a).toNat ∧ (c - a).toNat ≤ 4194304)
    (hb : 1 ≤ (c - b).toNat ∧ (c - b).toNat ≤ 4194304) : later a b = true ↔ (c - a).toNat < (c - b).toNat := by
  have hrange : later a b = true ↔ (a - b).toNat < 8388608 ∧ a ≠ b := by
    rw [later, Bool.and_eq_true, bne_iff_ne]
    exact and_congr_left' decide_eq_true_iff
  have hne : a ≠ b ↔ a.toNat ≠ b.toNat := not_congr BitVec.toNat_inj.symm
  rw [hrange, hne]
  simp only [BitVec.toNat_sub] at ha hb ⊢
  have hc := c.isLt
  have hal := a.isLt
  have hbl := b.isLt
  omega

/-- A sheet of these lies within the bound of R13 behind the counter. -/
def behind (c : Seq) (l : List LogicalSheet) : Prop :=
  ∀ x ∈ l, 1 ≤ (c - x.seq).toNat ∧ (c - x.seq).toNat ≤ 4194304

/-- The sheets ascend in sequence. -/
def ascending (l : List LogicalSheet) : Prop := l.Pairwise fun x y => later y.seq x.seq = true

theorem behind_of_perm {c : Seq} {l l' : List LogicalSheet} (hp : l'.Perm l) (h : behind c l) : behind c l' :=
  fun x hx => h x (hp.mem_iff.mp hx)

/-- A sheet put in at its place keeps the queue ascending (R16). -/
theorem insertSheet_ascending {c : Seq} {x : LogicalSheet} {l : List LogicalSheet} (hb : behind c (x :: l))
    (hn : ∀ y ∈ l, x.seq ≠ y.seq) (h : ascending l) : ascending (insertSheet x l) := by
  induction l with
  | nil => simp [insertSheet, ascending]
  | cons y ys ih =>
    obtain ⟨hx, hyl⟩ := List.forall_mem_cons.mp hb
    obtain ⟨hy, hys⟩ := List.forall_mem_cons.mp hyl
    obtain ⟨hhead, htail⟩ := List.pairwise_cons.mp h
    rw [insertSheet]
    split
    case isTrue hyx =>
      have hyx' := (later_iff_behind hy hx).mp hyx
      refine List.pairwise_cons.mpr ⟨List.forall_mem_cons.mpr ⟨hyx, fun z hz => ?_⟩, h⟩
      have hzy := (later_iff_behind (hys z hz) hy).mp (hhead z hz)
      exact (later_iff_behind (hys z hz) hx).mpr (hzy.trans hyx')
    case isFalse hyx =>
      have hxy : later x.seq y.seq = true := by
        refine (later_iff_behind hx hy).mpr (Nat.lt_of_le_of_ne ?_ ?_)
        · exact Nat.le_of_not_lt fun hlt => hyx ((later_iff_behind hy hx).mpr hlt)
        · intro heq
          have hsub : c - x.seq = c - y.seq := BitVec.eq_of_toNat_eq heq
          exact hn y List.mem_cons_self (sub_right_injective hsub)
      have hrest := ih (List.forall_mem_cons.mpr ⟨hx, hys⟩) (fun z hz => hn z (List.mem_cons_of_mem _ hz)) htail
      refine List.pairwise_cons.mpr ⟨fun z hz => ?_, hrest⟩
      rcases List.mem_cons.mp ((insertSheet_perm x ys).mem_iff.mp hz) with rfl | hz
      · exact hxy
      · exact hhead z hz

/-- Sheets put in one after another (R113). -/
def inserted (xs l : List LogicalSheet) : List LogicalSheet := xs.foldl (fun q x => insertSheet x q) l

theorem inserted_append (xs ys l : List LogicalSheet) : inserted (xs ++ ys) l = inserted ys (inserted xs l) :=
  List.foldl_append

theorem inserted_perm (xs l : List LogicalSheet) : (inserted xs l).Perm (xs ++ l) := by
  induction xs generalizing l with
  | nil => exact .refl _
  | cons x xs ih =>
    calc inserted (x :: xs) l = inserted xs (insertSheet x l) := rfl
      List.Perm _ (xs ++ insertSheet x l) := ih _
      List.Perm _ (xs ++ x :: l) := (insertSheet_perm x l).append_left xs
      List.Perm _ (x :: xs ++ l) := List.perm_middle

theorem inserted_ascending {c : Seq} {xs l : List LogicalSheet} (hb : behind c (xs ++ l))
    (hn : ((xs ++ l).map LogicalSheet.seq).Nodup) (h : ascending l) : ascending (inserted xs l) := by
  induction xs generalizing l with
  | nil => exact h
  | cons x xs ih =>
    have hperm : (xs ++ insertSheet x l).Perm (x :: xs ++ l) :=
      ((insertSheet_perm x l).append_left xs).trans List.perm_middle
    have hbx : behind c (x :: l) := fun y hy => hb y (by
      rcases List.mem_cons.mp hy with rfl | hy
      · exact List.mem_cons_self
      · exact List.mem_cons_of_mem _ (List.mem_append_right _ hy))
    have hnx : ∀ y ∈ l, x.seq ≠ y.seq := fun y hy heq => by
      refine (List.nodup_cons.mp hn).1 (heq ▸ List.mem_map_of_mem ?_)
      exact List.mem_append_right _ hy
    exact ih (behind_of_perm hperm hb) ((hperm.map _).nodup_iff.mpr hn) (insertSheet_ascending hbx hnx h)

/-- Held sheets that go back to their places leave all held sheets in order (R16, R113). -/
theorem sheetsInOrder_of_requeue {s t : State} {xs : List LogicalSheet} (hsame : s.holdsSame t)
    (hc : t.fetch.counter = s.fetch.counter) (hsched : t.fetch.schedule = inserted xs s.fetch.schedule)
    (h : s.sheetsInOrder) : t.sheetsInOrder := by
  obtain ⟨hnodup, hbehind, hasc⟩ := h
  have hn : (t.heldSheets.map LogicalSheet.seq).Nodup := (hsame.map _).nodup_iff.mpr hnodup
  have hb : behind t.fetch.counter t.heldSheets := behind_of_perm hsame (hc ▸ hbehind)
  have hperm := hsched ▸ inserted_perm xs s.fetch.schedule
  have hsub : t.fetch.schedule.Sublist t.heldSheets :=
    (List.sublist_append_left _ _).trans (List.sublist_append_left _ _)
  refine ⟨hn, hb, ?_⟩
  rw [hsched]
  refine inserted_ascending (behind_of_perm hperm.symm fun x hx => hb x (hsub.subset hx)) ?_ hasc
  exact (hperm.map _).nodup_iff.mp ((hsub.map _).nodup hn)

/-! ### Entries detached together -/

section
variable {s : State} {gone : List PathEntry} {r : PathEntry → SpoilReason}

theorem path_nodup (hd : s.launchesDistinct) : s.track.path.Nodup := List.Nodup.of_map _ hd

/-- Attached entries detached one after another (R112). -/
theorem foldl_detach_eq (hd : s.launchesDistinct) (hp : ∀ e ∈ gone, e ∈ s.track.path ∧ e.attached = true)
    (hn : gone.Nodup) : gone.foldl (fun t e => detach (r e) e t) s = s.withDetached gone r := by
  have h := foldl_detach gone [] r s hd hp hn (by simp)
  rwa [withDetached_nil] at h

/-- A detached entry holds no sheet; the others hold theirs (R112). -/
theorem withDetached_attachedSheets :
    (s.withDetached gone r).attachedSheets = (s.track.path.filter fun x => !gone.contains x).filterMap PathEntry.sheet := by
  simp only [State.attachedSheets, State.withDetached, List.filterMap_map, List.filterMap_filter]
  refine List.filterMap_congr fun x _ => ?_
  by_cases hx : x ∈ gone <;> simp [hx]

/-- The sheets of the detached entries and of those that stay are the attached sheets. -/
theorem attachedSheets_split (hd : s.launchesDistinct) (hp : ∀ e ∈ gone, e ∈ s.track.path) (hn : gone.Nodup) :
    s.attachedSheets.Perm (gone.filterMap PathEntry.sheet ++ (s.withDetached gone r).attachedSheets) := by
  have hgone : (s.track.path.filter fun x => gone.contains x).Perm gone := by
    refine (List.perm_ext_iff_of_nodup ((path_nodup hd).filter _) hn).mpr fun x => ?_
    simpa using hp x
  rw [withDetached_attachedSheets, ← List.filterMap_append]
  refine List.Perm.filterMap _ ?_
  exact (List.filter_append_perm (fun x => gone.contains x) s.track.path).symm.trans (hgone.append_right _)

end

/-! ### Underrun -/

/-- The reasons that an underrun of `e` gives (R114). -/
def underrunReason (e x : PathEntry) : SpoilReason := if x = e then .underrun else .cascade

section
variable {s : State} {e : PathEntry}

theorem mem_laterAttached {x : PathEntry} {q : Seq} :
    x ∈ s.laterAttached q ↔ x ∈ s.track.path ∧ x.attached = true ∧ later x.ident.seq q = true := by
  simp [State.laterAttached]

theorem not_mem_laterAttached : e ∉ s.laterAttached e.ident.seq := by
  simp [mem_laterAttached, later]

theorem laterAttached_eq (q : Seq) :
    s.laterAttached q =
      s.track.path.filter fun x =>
        x.sheet.isSome && decide (x.ident.seq ≠ q ∧ (x.ident.seq - q).toNat < 8388608) := by
  refine List.filter_congr fun x _ => congrArg _ ?_
  rw [Bool.eq_iff_iff, decide_eq_true_iff, later, Bool.and_eq_true, bne_iff_ne, and_comm]
  exact and_congr_right' decide_eq_true_iff

/-- The underrun entry and the later ones: in the path table, attached, each once. -/
theorem cascade_attached (he : e ∈ s.track.path) (ha : e.attached = true) :
    ∀ x ∈ e :: s.laterAttached e.ident.seq, x ∈ s.track.path ∧ x.attached = true :=
  List.forall_mem_cons.mpr ⟨⟨he, ha⟩, fun _ hx => (mem_laterAttached.mp hx).imp_right And.left⟩

theorem cascade_nodup (hd : s.launchesDistinct) : (e :: s.laterAttached e.ident.seq).Nodup :=
  List.nodup_cons.mpr ⟨not_mem_laterAttached, (path_nodup hd).filter _⟩

/-- The detaching of an underrun: the entry with UNDERRUN, the later ones with CASCADE (R114). -/
theorem detachAll_cascade (hd : s.launchesDistinct) (he : e ∈ s.track.path) (ha : e.attached = true) :
    detachAll .cascade (s.laterAttached e.ident.seq) (detach .underrun e s) =
      s.withDetached (e :: s.laterAttached e.ident.seq) (underrunReason e) := by
  rw [← foldl_detach_eq hd (cascade_attached he ha) (cascade_nodup hd), List.foldl_cons, detachAll,
    underrunReason, if_pos rfl]
  refine List.foldl_ext _ _ _ fun t x hx => ?_
  rw [underrunReason, if_neg fun h => not_mem_laterAttached (h ▸ hx)]

end

end Sys2Proof.Machine

open Sys2Proof Sys2Proof.Machine

/-- Settles O14, through what detaching a list of entries leaves and what putting their sheets back keeps. -/
theorem underrunLosesNoSheet : Obligations.UnderrunLosesNoSheet := by
  intro s e side pos hd he ha t cascaded
  have hcascaded : s.laterAttached e.ident.seq = cascaded := laterAttached_eq e.ident.seq
  let d := s.withDetached (e :: cascaded) (underrunReason e)
  let sheets := (e :: cascaded).filterMap PathEntry.sheet
  have ht : t = appendHist (.underrun side cascaded.length) none e.serial (some e.ident.seq) (some e.launch) pos
      (requeue sheets d) := by
    have hdetach := hcascaded ▸ detachAll_cascade hd he ha
    change underrun e side pos s = _
    simp only [underrun, hcascaded, hdetach, d, sheets]
  rw [appendHist_eq] at ht
  have hattached : t.attachedSheets = d.attachedSheets := by rw [ht]; rfl
  have hsched : t.fetch.schedule = inserted sheets s.fetch.schedule := by rw [ht]; rfl
  have hstore : t.track.store = s.track.store := by rw [ht]; rfl
  have hsame : s.holdsSame t := by
    have hsplit : s.attachedSheets.Perm (sheets ++ d.attachedSheets) :=
      attachedSheets_split hd (fun x hx => (cascade_attached he ha x (hcascaded ▸ hx)).1) (hcascaded ▸ cascade_nodup hd)
    rw [State.holdsSame, State.heldSheets, State.heldSheets, hattached, hsched, hstore]
    refine List.Perm.append_right _ ?_
    calc List.Perm (inserted sheets s.fetch.schedule ++ d.attachedSheets)
          (sheets ++ s.fetch.schedule ++ d.attachedSheets) := (inserted_perm _ _).append_right _
      List.Perm _ (s.fetch.schedule ++ (sheets ++ d.attachedSheets)) := by
        rw [← List.append_assoc]; exact List.perm_append_comm.append_right _
      List.Perm _ (s.fetch.schedule ++ s.attachedSheets) := hsplit.symm.append_left _
  refine ⟨?_, hsame, ?_, sheetsInOrder_of_requeue hsame ?_ hsched⟩
  · rw [hsched]; exact ht
  · rw [hattached, withDetached_attachedSheets]
    refine congrArg _ (List.filter_congr fun x _ => ?_)
    simp [bne, beq_eq_decide]
  · rw [ht]; rfl

end

section
/-! SUPPORT. The steps of a cancel: the sheets that leave each place, their lock table entries, and the record (R124 to
R126). -/

namespace Sys2Proof.Machine

section
variable {p : PieceId} {s : State}

theorem ofPiece_eq (e : PathEntry) : e.ofPiece p = e.sheet.any fun x => x.piece == p := by
  cases h : e.sheet <;> simp [PathEntry.ofPiece, h]

theorem ofPiece_attached {e : PathEntry} (h : e.ofPiece p = true) : e.attached = true := by
  rw [ofPiece_eq] at h
  exact Option.isSome_of_any h

/-- The path entries of the piece (R125). -/
def State.entriesOf (s : State) (p : PieceId) : List PathEntry := s.track.path.filter (PathEntry.ofPiece p)

theorem mem_entriesOf {e : PathEntry} : e ∈ s.entriesOf p ↔ e ∈ s.track.path ∧ e.ofPiece p = true := List.mem_filter

theorem entriesOf_sheets : (s.entriesOf p).filterMap PathEntry.sheet = s.attachedSheets.filter fun x => x.piece == p := by
  rw [State.entriesOf, State.attachedSheets, List.filterMap_filter, List.filter_filterMap]
  refine List.filterMap_congr fun e _ => ?_
  cases h : e.sheet <;> simp [PathEntry.ofPiece, h, Option.filter]

/-- The entries of the piece detached, with the sheets of the others left (R125). -/
theorem withDetached_others (r : PathEntry → SpoilReason) :
    (s.withDetached (s.entriesOf p) r).attachedSheets = s.attachedSheets.filter fun x => x.piece != p := by
  rw [withDetached_attachedSheets, State.attachedSheets, List.filterMap_filter, List.filter_filterMap]
  refine List.filterMap_congr fun e he => ?_
  cases h : e.sheet <;> simp [mem_entriesOf, he, PathEntry.ofPiece, h, Option.filter, bne]

theorem detachAll_entriesOf (hd : s.launchesDistinct) :
    detachAll .cancelled (s.entriesOf p) s = s.withDetached (s.entriesOf p) fun _ => .cancelled :=
  foldl_detach_eq hd (fun _ he => (mem_entriesOf.mp he).imp_right ofPiece_attached) ((path_nodup hd).filter _)

/-- The path table of a cancel holds each entry of the piece detached, its serial kept (R125). -/
theorem mem_withDetached_path {gone : List PathEntry} {r : PathEntry → SpoilReason} {e : PathEntry}
    (hp : e ∈ s.track.path) (he : e ∈ gone) : e.detachedAs (r e) ∈ (s.withDetached gone r).track.path :=
  List.mem_map.mpr ⟨e, hp, if_pos he⟩

/-- The stacker piece record when it names the piece (R123). -/
def State.namedRecord (s : State) (p : PieceId) : Option StackerPiece := s.track.piece.filter fun r => r.piece == p

theorem recordNames_iff : s.recordNames p = true ↔ ∃ r, s.track.piece = some r ∧ r.piece = p := by
  cases h : s.track.piece <;> simp [State.recordNames, h]

theorem cancelRecord_eq : cancelRecord p s =
    { piece := p, pendingCount := (s.fetch.schedule.filter fun x => x.piece == p).length
      inPath := (s.attachedSheets.filter fun x => x.piece == p).length
      voided := ((s.namedRecord p).map StackerPiece.count).getD 0
      first := (s.namedRecord p).map StackerPiece.firstSerial
      last := (s.namedRecord p).map StackerPiece.lastSerial
      committed := ((s.namedRecord p).map StackerPiece.committed).getD false } := by
  have hcount : (s.track.path.filter (PathEntry.ofPiece p)).length =
      (s.attachedSheets.filter fun x => x.piece == p).length := by
    rw [← entriesOf_sheets, List.length_filterMap_eq_countP, List.countP_eq_length.mpr]
    · rfl
    · exact fun e he => ofPiece_attached (mem_entriesOf.mp he).2
  rw [cancelRecord, hcount]
  cases h : s.track.piece with
  | none => simp [State.namedRecord, h]
  | some r => by_cases hr : r.piece = p <;> simp [State.namedRecord, h, hr, Option.filter]

/-- The pending sheets and the path entries of the piece are gone, each with its lock table entries (R124, R125). -/
theorem cancelInPath_eq (hd : s.launchesDistinct) :
    cancelInPath p (cancelPending p s) =
      { s.withDetached (s.entriesOf p) fun _ => .cancelled with
        fetch := { s.fetch with schedule := s.fetch.schedule.filter fun x => x.piece != p }
        pass :=
          { s.pass with
            locks := (s.pass.locks.filter fun k =>
                !((s.fetch.schedule.filter fun x => x.piece == p).map LogicalSheet.seq).contains k.seq).filter fun k =>
              !((s.attachedSheets.filter fun x => x.piece == p).map LogicalSheet.seq).contains k.seq } } := by
  have hdetach : detachAll .cancelled (s.entriesOf p) (cancelPending p s) =
      (cancelPending p s).withDetached (s.entriesOf p) fun _ => .cancelled :=
    detachAll_entriesOf (s := cancelPending p s) hd
  have hinpath : cancelInPath p (cancelPending p s) =
      unlock (((s.entriesOf p).filterMap PathEntry.sheet).map LogicalSheet.seq)
        (detachAll .cancelled (s.entriesOf p) (cancelPending p s)) := rfl
  rw [hinpath, hdetach, entriesOf_sheets]
  rfl

/-- The lock table entries that none of these sheets has. -/
theorem mem_filter_unlocked {locks : List Lock} {xs : List LogicalSheet} {k : Lock} :
    (k ∈ locks.filter fun k => !(xs.map LogicalSheet.seq).contains k.seq) ↔ k ∈ locks ∧ ∀ x ∈ xs, k.seq ≠ x.seq := by
  rw [List.mem_filter]
  refine and_congr_right' ?_
  simp [@eq_comm _ k.seq]

/-- The delivered sheets of the piece and its stacker piece record are gone, and beside them the others stay (R126): the
retained store holds sheets of the recorded piece alone (R89). -/
theorem cancelDelivered_eq (h : ∀ x ∈ s.track.store, ∃ r, s.track.piece = some r ∧ r.piece = x.piece) :
    (if s.recordNames p then cancelDelivered s else s) =
      { s with
        pass :=
          { s.pass with
            locks := s.pass.locks.filter fun k =>
              !((s.track.store.filter fun x => x.piece == p).map LogicalSheet.seq).contains k.seq }
        track :=
          { s.track with
            store := s.track.store.filter fun x => x.piece != p
            piece := s.track.piece.filter fun r => r.piece != p } } := by
  by_cases hn : s.recordNames p = true
  · obtain ⟨r, hr, hp⟩ := recordNames_iff.mp hn
    have hstore : ∀ x ∈ s.track.store, x.piece = p := fun x hx => by
      obtain ⟨r', hr', hx'⟩ := h x hx
      exact hx'.symm.trans (Option.some.inj (hr.symm.trans hr') ▸ hp)
    have hall : (s.track.store.filter fun x => x.piece == p) = s.track.store :=
      List.filter_eq_self.mpr fun x hx => beq_iff_eq.mpr (hstore x hx)
    have hnone : (s.track.store.filter fun x => x.piece != p) = [] :=
      List.filter_eq_nil_iff.mpr fun x hx => by simp [hstore x hx]
    have hpiece : (s.track.piece.filter fun r => r.piece != p) = none := by simp [hr, hp, Option.filter]
    rw [if_pos hn, hall, hnone, hpiece]
    rfl
  · have hpiece : ∀ r, s.track.piece = some r → r.piece ≠ p := fun r hr hp => hn (recordNames_iff.mpr ⟨r, hr, hp⟩)
    have hstore : ∀ x ∈ s.track.store, x.piece ≠ p := fun x hx => by
      obtain ⟨r, hr, hx'⟩ := h x hx
      exact hx' ▸ hpiece r hr
    have hnone : (s.track.store.filter fun x => x.piece == p) = [] :=
      List.filter_eq_nil_iff.mpr fun x hx => by simp [hstore x hx]
    have hall : (s.track.store.filter fun x => x.piece != p) = s.track.store :=
      List.filter_eq_self.mpr fun x hx => bne_iff_ne.mpr (hstore x hx)
    have hkeep : (s.track.piece.filter fun r => r.piece != p) = s.track.piece :=
by
      cases hr : s.track.piece with
      | none => rfl
      | some r => simp [Option.filter, hpiece r hr]
    have hlocks : (s.pass.locks.filter fun k => !(([] : List LogicalSheet).map LogicalSheet.seq).contains k.seq) =
        s.pass.locks := by simp
    rw [if_neg hn, hnone, hlocks, hall, hkeep]

end

end Sys2Proof.Machine

open Sys2Proof Sys2Proof.Machine

/-- Settles O35, place by place: the schedule queue and the path, the delivered sheets, and the record. -/
theorem cancelGivesUpPiece : Obligations.CancelGivesUpPiece := by
  intro p s hd hstore t others named gone detached
  have hgone : s.entriesOf p = gone := List.filter_congr fun e _ => ofPiece_eq e
  let u := cancelInPath p (cancelPending p s)
  have hu : u = _ := cancelInPath_eq hd
  have hnames : u.recordNames p = s.recordNames p := by rw [hu]; rfl
  have ht : t = handRecord (.pieceCancelled (cancelRecord p s))
      (if u.recordNames p then cancelDelivered u else u) := by rw [hnames]; rfl
  have hustore : ∀ x ∈ u.track.store, ∃ r, u.track.piece = some r ∧ r.piece = x.piece := by rw [hu]; exact hstore
  rw [cancelDelivered_eq hustore, hu, hgone, cancelRecord_eq] at ht
  have hattached : t.attachedSheets = s.attachedSheets.filter others := by
    refine Eq.trans ?_ (withDetached_others (p := p) fun _ => .cancelled)
    rw [ht, hgone]; rfl
  refine ⟨?_, ?_, hattached, ?_, fun e he => ?_, fun k => ?_, ?_⟩
  · rw [ht]; rfl
  · rw [ht]; rfl
  · rw [ht]; rfl
  · refine ⟨e.detachedAs .cancelled, ?_, rfl, rfl, rfl, rfl, rfl⟩
    have hmem : e.detachedAs .cancelled ∈ detached.track.path :=
      mem_withDetached_path (r := fun _ => .cancelled) (List.mem_filter.mp he).1 he
    rw [ht]
    exact hmem
  · let spared (xs : List LogicalSheet) : Prop := ∀ x ∈ xs.filter (fun x => x.piece == p), k.seq ≠ x.seq
    have hlocks : k ∈ t.pass.locks ↔
        ((k ∈ s.pass.locks ∧ spared s.fetch.schedule) ∧ spared s.attachedSheets) ∧ spared s.track.store := by
      rw [ht]
      refine mem_filter_unlocked.trans (and_congr_left' ?_)
      exact mem_filter_unlocked.trans (and_congr_left' mem_filter_unlocked)
    rw [hlocks]
    simp [spared, State.heldSheets, or_imp, forall_and, and_assoc]
  · rw [ht]; rfl

end

section
/-! SUPPORT. A stop (R43, R116 to R122): the halt of the path, the reports of its entries one after another, the sheets put
back, the broken piece, and the event history across them. -/

namespace Sys2Proof.Machine

/-! ### The newest entries of the history -/

/-- The newest of a list that was itself cut to its newest. -/
theorem newest_newest_append {α : Type} (n : Nat) (l m : List α) : newest n (newest n l ++ m) = newest n (l ++ m) := by
  have hcut : newest n l ++ m = (l ++ m).drop (l.length - n) := by
    rw [List.drop_append_of_le_length (Nat.sub_le _ _)]
    rfl
  rw [hcut, newest, newest, List.drop_drop, List.length_drop, List.length_append]
  congr 1
  omega

theorem remembering_of_frozen {h : HistoryUnit} (x : HistEntry) (hf : h.frozen = true) : h.remembering x = h := if_pos hf

theorem remembering_entries {h : HistoryUnit} (x : HistEntry) (hf : h.frozen = false) :
    (h.remembering x).entries = newest 32 (h.entries ++ [x]) := by
  simp [HistoryUnit.remembering, hf, newest]

theorem remembering_dump (h : HistoryUnit) (x : HistEntry) : (h.remembering x).dump = h.dump := by
  unfold HistoryUnit.remembering
  split <;> rfl

/-! ### What reporting leaves alone -/

/-- From `u` to `v` nothing has changed but what reports change: the queue of records, the watch units, the history's
entries and its frozen flag, the hold latch that a firing may set, and the outputs (R96, R118, R170). -/
def State.reportsTo (u v : State) : Prop :=
  v =
      { u with
        run := { u.run with hold := v.run.hold }
        report := { u.report with queue := v.report.queue }
        watch := v.watch, history := v.history, out := v.out } ∧
    (u.run.hold = true → v.run.hold = true) ∧ v.history.dump = u.history.dump

theorem reportsTo_refl (u : State) : u.reportsTo u := ⟨rfl, id, rfl⟩

theorem reportsTo_trans {u v w : State} (h : u.reportsTo v) (h' : v.reportsTo w) : u.reportsTo w := by
  obtain ⟨hv, hhold, hdump⟩ := h
  obtain ⟨hw, hhold', hdump'⟩ := h'
  exact ⟨hw.trans (by rw [hv]), hhold' ∘ hhold, hdump'.trans hdump⟩

theorem countMatch_hold {u : UnitId} {item : HitItem} {s : State} (h : s.run.hold = true) :
    (countMatch u item s).run.hold = true := by
  rcases countMatch_cases u item s with ⟨-, he⟩ | ⟨p, -, ⟨-, he⟩ | ⟨-, he⟩⟩
  · rwa [he]
  · rw [he]
    simpa using h
  · rw [he, fire_hold, h, Bool.true_or]

/-- An offer sets the hold latch or leaves it, and clears none (R46, R170). -/
theorem offer_hold {item : HitItem} {s : State} (h : s.run.hold = true) : (offer item s).run.hold = true := by
  have hfirst (b : Bool) : (if b then countMatch .w0 item s else s).run.hold = true := by
    cases b with
    | true => exact countMatch_hold h
    | false => exact h
  simp only [offer]
  split
  · exact countMatch_hold (hfirst _)
  · exact hfirst _

theorem offer_reportsTo (item : HitItem) (s : State) : s.reportsTo (offer item s) := by
  obtain ⟨hpending, hfetch, hrun, htime, hexpect, hplan, htrack, himage, hrecover, hreport, hhist, hsetup, htally, hpins⟩ :=
    offer_onlyObserved item s
  have hpass : (offer item s).pass = s.pass := by simp
  refine ⟨State.ext hpending hpass hfetch hrun htime hexpect hplan htrack himage hrecover hreport rfl rfl hsetup htally
    hpins rfl, offer_hold, ?_⟩
  rw [hhist]

theorem appendHist_reportsTo (kind : HistKind) (station : Option Station) (serial : Option Serial) (seq : Option Seq)
    (launch : Option Launch) (pos : Pos) (s : State) : s.reportsTo (appendHist kind station serial seq launch pos s) := by
  rw [appendHist_eq]
  exact ⟨rfl, id, remembering_dump _ _⟩

theorem handRecord_reportsTo (r : Record) (s : State) : s.reportsTo (handRecord r s) := ⟨rfl, id, rfl⟩

theorem reportSpoiled_reportsTo (e : PathEntry) (reason : SpoilReason) (place : Option Station) (pos : Pos) (s : State) :
    s.reportsTo (reportSpoiled e reason place pos s) :=
  reportsTo_trans (reportsTo_trans (handRecord_reportsTo _ s) (appendHist_reportsTo ..)) (offer_reportsTo ..)

/-! ### The entries reported one after another -/

/-- A stop's reports of the entries of the path table (R118). -/
def reportAll (pos : Pos) (es : List PathEntry) (s : State) : State :=
  es.foldl (fun s e => reportSpoiled e (stopReason e) none pos s) s

/-- The history entry of a stop's report (R118, R171). -/
def spoilEntry (pos : Pos) (e : PathEntry) : HistEntry :=
  { kind := .spoil (stopReason e), station := none, serial := e.serial, seq := some e.ident.seq, launch := some e.launch
    pos := pos, runState := .stopped }

section
variable {pos : Pos} {es : List PathEntry} {e : PathEntry} {u : State}

theorem reportAll_cons : reportAll pos (e :: es) u = reportAll pos es (reportSpoiled e (stopReason e) none pos u) := rfl

theorem reportAll_reportsTo (pos : Pos) (es : List PathEntry) (u : State) : u.reportsTo (reportAll pos es u) := by
  induction es generalizing u with
  | nil => exact reportsTo_refl u
  | cons e es ih => exact reportsTo_trans (reportSpoiled_reportsTo e _ none pos u) (ih _)

theorem reportAll_withoutHits :
    withoutHits (reportAll pos es u).report.queue =
      withoutHits u.report.queue ++
        es.map fun e => { record := spoilRecord e (stopReason e) none pos, fixed := false } := by
  induction es generalizing u with
  | nil => exact (List.append_nil _).symm
  | cons e es ih => rw [reportAll_cons, ih, reportSpoiled_withoutHits, List.append_assoc]; rfl

theorem reportSpoiled_history (hs : u.run.state = .stopped) :
    (reportSpoiled e (stopReason e) none pos u).history =
      { u.history.remembering (spoilEntry pos e) with
        frozen := (reportSpoiled e (stopReason e) none pos u).history.frozen } := by
  have h := sheetEvent_history (kind := .spoil) (hist := .spoil (stopReason e)) (station := none) (e := e) (pos := pos)
    (s := handRecord (spoilRecord e (stopReason e) none pos) u)
  have hrun : (handRecord (spoilRecord e (stopReason e) none pos) u).run.state = .stopped := hs
  rw [hrun] at h
  exact h

theorem reportSpoiled_state (hs : u.run.state = .stopped) :
    (reportSpoiled e (stopReason e) none pos u).run.state = .stopped := by
  obtain ⟨h, -, -⟩ := reportSpoiled_reportsTo e (stopReason e) none pos u
  rw [h]
  exact hs

/-- Reports leave a frozen history as it is (R171). -/
theorem reportAll_history_of_frozen (hs : u.run.state = .stopped) (hf : u.history.frozen = true) :
    (reportAll pos es u).history = u.history := by
  induction es generalizing u with
  | nil => rfl
  | cons e es ih =>
    have hfrozen : (reportSpoiled e (stopReason e) none pos u).history.frozen = true := sheetEvent_frozen hf
    have hone : (reportSpoiled e (stopReason e) none pos u).history = u.history := by
      rw [reportSpoiled_history hs, hfrozen, remembering_of_frozen _ hf, ← hf]
    rw [reportAll_cons, ih (reportSpoiled_state hs) hfrozen, hone]

/-- A history that is not frozen after the reports has taken an entry of each. -/
theorem reportAll_entries (hs : u.run.state = .stopped) (hf : (reportAll pos es u).history.frozen = false) (x : HistEntry) :
    newest 32 ((reportAll pos es u).history.entries ++ [x]) =
      newest 32 (u.history.entries ++ es.map (spoilEntry pos) ++ [x]) := by
  induction es generalizing u with
  | nil => rw [List.map_nil, List.append_nil]; rfl
  | cons e es ih =>
    have hopen : u.history.frozen = false := by
      by_contra h
      rw [reportAll_history_of_frozen hs (Bool.eq_true_of_not_eq_false h)] at hf
      exact h hf
    have hentries : (reportSpoiled e (stopReason e) none pos u).history.entries =
        newest 32 (u.history.entries ++ [spoilEntry pos e]) := by
      rw [reportSpoiled_history hs]
      exact remembering_entries _ hopen
    rw [reportAll_cons] at hf ⊢
    rw [ih (reportSpoiled_state hs) hf, hentries, List.append_assoc, newest_newest_append]
    simp

/-- A history that the reports freeze ends with the entry of the report that froze it (R170, R171). -/
theorem reportAll_entries_of_froze (hs : u.run.state = .stopped) (hu : u.history.frozen = false)
    (hf : (reportAll pos es u).history.frozen = true) :
    ∃ k, 1 ≤ k ∧ k ≤ es.length ∧
      (reportAll pos es u).history.entries = newest 32 (u.history.entries ++ (es.map (spoilEntry pos)).take k) := by
  induction es generalizing u with
  | nil => exact absurd hf (by simp [reportAll, hu])
  | cons e es ih =>
    have hentries : (reportSpoiled e (stopReason e) none pos u).history.entries =
        newest 32 (u.history.entries ++ [spoilEntry pos e]) := by
      rw [reportSpoiled_history hs]
      exact remembering_entries _ hu
    rw [reportAll_cons] at hf ⊢
    cases hone : (reportSpoiled e (stopReason e) none pos u).history.frozen with
    | true =>
      refine ⟨1, le_rfl, Nat.succ_le_succ (Nat.zero_le _), ?_⟩
      rw [reportAll_history_of_frozen (reportSpoiled_state hs) hone, hentries]
      rfl
    | false =>
      obtain ⟨k, -, hk, hrest⟩ := ih (reportSpoiled_state hs) hone hf
      refine ⟨k + 1, Nat.succ_le_succ (Nat.zero_le _), Nat.succ_le_succ hk, ?_⟩
      rw [hrest, hentries, newest_newest_append]
      simp

end

end Sys2Proof.Machine

open Sys2Proof Sys2Proof.Machine
end

section
/-! SUPPORT. The state that a stop leaves, step by step (R43, R70, R105, R116 to R122). -/

namespace Sys2Proof.Machine

/-! ### The halt of the path and the fault -/

/-- The state at entry into STOPPED, ahead of the recovery unit's work (R37, R43, R70, R105). -/
def State.halted (cause : StopCause) (s : State) : State := haltPath (changeRun .stopped (some cause) s)

/-- The snapshot is locked and the FAULT record is handed (R116, R117). -/
def State.faulted (snap : Snapshot) (s : State) : State :=
  handRecord (.fault { snapshot := snap, spoiled := s.track.path.length, estimate := s.time.estimate })
    { s with recover := { snapshot := some snap, lock := true } }

/-- The entries are reported, detached, and their sheets requeued (R113, R118). -/
def State.spoiled (snap : Snapshot) (s : State) : State :=
  let u := reportAll snap.pos s.track.path (s.faulted snap)
  requeue s.attachedSheets
    { u with
      track := { u.track with path := s.track.path.map PathEntry.stopped }
      plan := { u.plan with lastStacker := none } }

/-- The piece at the stacker is broken when the stop breaks it (R121, R122). -/
def State.broken (path : List PathEntry) (s : State) : State := if s.breaksPiece path then breakPiece s else s

theorem stopWork_eq (snap : Snapshot) (s : State) :
    stopWork snap s =
      appendHist (.stop snap.cause) snap.station snap.serial none snap.launch snap.pos
        ((s.spoiled snap).broken s.track.path) := rfl

section
variable {cause : StopCause} {snap : Snapshot} {s : State}

theorem halted_eq : s.halted cause =
    { s with
      run := { s.run with state := .stopped, timer := none }
      expect := { s.expect with items := [] }
      plan := { s.plan with staged := none, gapMet := true, lastRelease := none }
      image := { s.image with current := none }
      report := { s.report with queue := (changeRun .stopped (some cause) s).report.queue } } := by
  apply State.ext <;> simp [State.halted, haltPath]
  apply ReportUnit.ext <;> simp

theorem spoiled_eq : s.spoiled snap =
    { s with
      fetch := { s.fetch with schedule := inserted s.attachedSheets s.fetch.schedule }
      run := { s.run with hold := (s.spoiled snap).run.hold }
      plan := { s.plan with lastStacker := none }
      track := { s.track with path := s.track.path.map PathEntry.stopped }
      recover := { snapshot := some snap, lock := true }
      report := { s.report with queue := (s.spoiled snap).report.queue }
      watch := (s.spoiled snap).watch, history := (s.spoiled snap).history, out := (s.spoiled snap).out } := by
  obtain ⟨h, -, -⟩ := reportAll_reportsTo snap.pos s.track.path (s.faulted snap)
  rw [State.spoiled, h]
  rfl

theorem spoiled_withoutHits : withoutHits (s.spoiled snap).report.queue =
    withoutHits s.report.queue ++
      { record := .fault { snapshot := snap, spoiled := s.track.path.length, estimate := s.time.estimate }
        fixed := false } ::
        s.track.path.map fun e => { record := spoilRecord e (stopReason e) none snap.pos, fixed := false } := by
  refine Eq.trans (b := withoutHits (reportAll snap.pos s.track.path (s.faulted snap)).report.queue) rfl ?_
  have hfault : (s.faulted snap).report.queue = s.report.queue ++ [_] := rfl
  rw [reportAll_withoutHits, hfault, withoutHits_append, List.append_assoc]
  rfl

/-! ### The broken piece -/

/-- A stop breaks the piece of the retained store that a print in the path belongs to (R119, R121). -/
theorem breaksPiece_iff {path : List PathEntry} : s.breaksPiece path = true ↔
    ∃ h p, s.cfg.recovery = .piece ∧ s.track.store.head? = some h ∧ s.track.piece = some p ∧ p.committed = false ∧
      ∃ e ∈ path, e.sheet ≠ none ∧ e.ident.piece = p.piece ∧
        e.ident.seq = h.seq + BitVec.ofNat 24 e.ident.index - 1 := by
  unfold State.breaksPiece
  cases hstore : s.track.store with
  | nil => simp
  | cons h hs => cases hp : s.track.piece <;> simp [belongsTo, attached_iff]

theorem breakPiece_eq {p : StackerPiece} (hp : s.track.piece = some p) : breakPiece s =
    { s with
      fetch := { s.fetch with schedule := inserted s.track.store s.fetch.schedule }
      track := { s.track with store := [], piece := none }
      report :=
        { s.report with
          queue := s.report.queue ++
            [{ record := .pieceVoid
                 { piece := p.piece, count := s.track.store.length, first := p.firstSerial, last := p.lastSerial }
               fixed := false }] } } := by
  rw [breakPiece, hp]
  rfl

/-- The break of a piece changes the schedule queue, the stacker's side of the tracker and the queue of records (R122). -/
theorem broken_eq (path : List PathEntry) : s.broken path =
    { s with
      fetch := { s.fetch with schedule := (s.broken path).fetch.schedule }
      track := { s.track with store := (s.broken path).track.store, piece := (s.broken path).track.piece }
      report := { s.report with queue := (s.broken path).report.queue } } := by
  unfold State.broken breakPiece
  split
  · split <;> rfl
  · rfl

/-! ### The recovery unit's work as a whole -/

/-- What the recovery unit's work at a stop leaves, the sheets, the stacker, the records and the history aside (R116). -/
theorem stopWork_frameEq : stopWork snap s =
    { s with
      fetch := { s.fetch with schedule := (stopWork snap s).fetch.schedule }
      run := { s.run with hold := (stopWork snap s).run.hold }
      plan := { s.plan with lastStacker := none }
      track :=
        { s.track with
          path := s.track.path.map PathEntry.stopped
          store := (stopWork snap s).track.store, piece := (stopWork snap s).track.piece }
      recover := { snapshot := some snap, lock := true }
      report := { s.report with queue := (stopWork snap s).report.queue }
      watch := (stopWork snap s).watch, history := (stopWork snap s).history, out := (stopWork snap s).out } := by
  rw [stopWork_eq, appendHist_eq]
  have hw := spoiled_eq (snap := snap) (s := s)
  have hx := broken_eq (s := s.spoiled snap) s.track.path
  generalize (s.spoiled snap).broken s.track.path = x at hx
  generalize s.spoiled snap = w at hw hx
  rw [hx, hw]

theorem broken_spoiled_run : ((s.spoiled snap).broken s.track.path).run =
    (reportAll snap.pos s.track.path (s.faulted snap)).run := by
  rw [broken_eq]; rfl

theorem broken_spoiled_history : ((s.spoiled snap).broken s.track.path).history =
    (reportAll snap.pos s.track.path (s.faulted snap)).history := by
  rw [broken_eq]; rfl

theorem stopWork_hold (h : s.run.hold = true) : (stopWork snap s).run.hold = true := by
  obtain ⟨-, hhold, -⟩ := reportAll_reportsTo snap.pos s.track.path (s.faulted snap)
  rw [stopWork_eq, appendHist_eq]
  exact broken_spoiled_run ▸ hhold h

/-- The history entry of a stop, dated by its snapshot (R171). -/
def stopEntry (snap : Snapshot) : HistEntry :=
  { kind := .stop snap.cause, station := snap.station, serial := snap.serial, seq := none, launch := snap.launch
    pos := snap.pos, runState := .stopped }

/-- The history takes the entry of the stop behind those of the reports (R171). -/
theorem stopWork_history (hs : s.run.state = .stopped) : (stopWork snap s).history =
    (reportAll snap.pos s.track.path (s.faulted snap)).history.remembering (stopEntry snap) := by
  have hrun : ((s.spoiled snap).broken s.track.path).run.state = .stopped := by
    obtain ⟨h, -, -⟩ := reportAll_reportsTo snap.pos s.track.path (s.faulted snap)
    rw [broken_spoiled_run, h]
    exact hs
  rw [stopWork_eq, appendHist_eq, hrun, broken_spoiled_history]
  rfl

theorem stopWork_history_dump (hs : s.run.state = .stopped) : (stopWork snap s).history.dump = s.history.dump := by
  obtain ⟨-, -, hdump⟩ := reportAll_reportsTo snap.pos s.track.path (s.faulted snap)
  rw [stopWork_history hs, remembering_dump, hdump]
  rfl

theorem stopWork_history_of_frozen (hs : s.run.state = .stopped) (hf : s.history.frozen = true) :
    (stopWork snap s).history = s.history := by
  have hreports : (reportAll snap.pos s.track.path (s.faulted snap)).history = s.history :=
    reportAll_history_of_frozen (u := s.faulted snap) hs hf
  rw [stopWork_history hs, hreports, remembering_of_frozen _ hf]

theorem stopWork_entries (hs : s.run.state = .stopped) (hf : (stopWork snap s).history.frozen = false) :
    (stopWork snap s).history.entries =
      newest 32 (s.history.entries ++ s.track.path.map (spoilEntry snap.pos) ++ [stopEntry snap]) := by
  rw [stopWork_history hs, remembering_frozen] at hf
  rw [stopWork_history hs, remembering_entries _ hf]
  exact reportAll_entries (u := s.faulted snap) hs hf _

theorem stopWork_entries_of_froze (hs : s.run.state = .stopped) (hu : s.history.frozen = false)
    (hf : (stopWork snap s).history.frozen = true) :
    ∃ k, 1 ≤ k ∧ k ≤ s.track.path.length ∧
      (stopWork snap s).history.entries =
        newest 32 (s.history.entries ++ (s.track.path.map (spoilEntry snap.pos)).take k) := by
  rw [stopWork_history hs, remembering_frozen] at hf
  rw [stopWork_history hs, remembering_of_frozen _ hf]
  exact reportAll_entries_of_froze (u := s.faulted snap) hs hu hf

/-- A stop that breaks no piece leaves the stacker alone (R121). -/
theorem stopWork_of_whole (h : ¬s.breaksPiece s.track.path = true) :
    (stopWork snap s).fetch.schedule = inserted s.attachedSheets s.fetch.schedule ∧
      (stopWork snap s).track = { s.track with path := s.track.path.map PathEntry.stopped } ∧
      (stopWork snap s).report.queue = (s.spoiled snap).report.queue := by
  have hbreaks : (s.spoiled snap).breaksPiece s.track.path = s.breaksPiece s.track.path := by rw [spoiled_eq]; rfl
  have hx : (s.spoiled snap).broken s.track.path = s.spoiled snap := if_neg (hbreaks ▸ h)
  rw [stopWork_eq, appendHist_eq, hx]
  refine ⟨?_, ?_, rfl⟩
  · rw [spoiled_eq]
  · rw [spoiled_eq]

/-- A broken piece is requeued with its record, and the stacker is empty (R121, R122). -/
theorem stopWork_of_breaks {p : StackerPiece} (h : s.breaksPiece s.track.path = true) (hp : s.track.piece = some p) :
    (stopWork snap s).fetch.schedule = inserted (s.attachedSheets ++ s.track.store) s.fetch.schedule ∧
      (stopWork snap s).track =
        { s.track with path := s.track.path.map PathEntry.stopped, store := [], piece := none } ∧
      (stopWork snap s).report.queue =
        (s.spoiled snap).report.queue ++
          [{ record := .pieceVoid
               { piece := p.piece, count := s.track.store.length, first := p.firstSerial, last := p.lastSerial }
             fixed := false }] := by
  have hw := spoiled_eq (snap := snap) (s := s)
  have hbreaks : (s.spoiled snap).breaksPiece s.track.path = s.breaksPiece s.track.path := by rw [hw]; rfl
  have hx : (s.spoiled snap).broken s.track.path = breakPiece (s.spoiled snap) := if_pos (hbreaks ▸ h)
  have hpiece : (s.spoiled snap).track.piece = some p := by rw [hw]; exact hp
  rw [stopWork_eq, appendHist_eq, hx, breakPiece_eq hpiece, inserted_append]
  refine ⟨?_, ?_, ?_⟩
  · rw [hw]
  · rw [hw]
  · rw [hw]

/-- A stop puts held sheets back among the pending ones (R113, R119, R122). -/
theorem stopWork_requeues : ∃ xs, (stopWork snap s).fetch.schedule = inserted xs s.fetch.schedule := by
  by_cases h : s.breaksPiece s.track.path = true
  · obtain ⟨-, p, -, -, hp, -⟩ := breaksPiece_iff.mp h
    exact ⟨_, (stopWork_of_breaks h hp).1⟩
  · exact ⟨_, (stopWork_of_whole h).1⟩

theorem stopped_attachedSheets {t : State} {es : List PathEntry} (h : t.track.path = es.map PathEntry.stopped) :
    t.attachedSheets = [] := by
  rw [State.attachedSheets, h, List.filterMap_map, List.filterMap_eq_nil_iff]
  exact fun e _ => stopped_sheet e

/-- A stop loses no logical sheet (R113). -/
theorem stopWork_holdsSame : s.holdsSame (stopWork snap s) := by
  by_cases h : s.breaksPiece s.track.path = true
  · obtain ⟨-, p, -, -, hp, -⟩ := breaksPiece_iff.mp h
    obtain ⟨hsched, htrack, -⟩ := stopWork_of_breaks (snap := snap) h hp
    rw [State.holdsSame, State.heldSheets, State.heldSheets,
      stopped_attachedSheets (congrArg TrackUnit.path htrack), hsched, htrack, List.append_nil, List.append_nil,
      List.append_assoc]
    exact (inserted_perm _ _).trans List.perm_append_comm
  · obtain ⟨hsched, htrack, -⟩ := stopWork_of_whole (snap := snap) h
    rw [State.holdsSame, State.heldSheets, State.heldSheets,
      stopped_attachedSheets (congrArg TrackUnit.path htrack), hsched, htrack, List.append_nil]
    exact ((inserted_perm _ _).trans List.perm_append_comm).append_right _

end

end Sys2Proof.Machine

open Sys2Proof Sys2Proof.Machine
/-- Settles O48: the halt of the path, then the recovery unit's work on the halted state. -/
theorem stopHaltsAndReports : Obligations.StopHaltsAndReports := by
  intro cause station pos launch serial s t snap stops open' reason reports path breaks newest entry spoils
  have hstops : stops ↔ stopsIn cause s.run.state = true := by
    cases cause <;> simp [stops, stopsIn, or_assoc]
  let d := s.halted cause
  have hd : d = _ := halted_eq
  have hsame : s.holdsSame t ∧ ∃ xs, t.fetch.counter = s.fetch.counter ∧
      t.fetch.schedule = inserted xs s.fetch.schedule := by
    rcases stop_cases cause station pos launch serial s with ⟨-, ht⟩ | ⟨-, -, ht⟩ | ⟨-, -, ht⟩
    · rw [show t = s from ht]
      exact ⟨.refl _, [], rfl, rfl⟩
    · rw [show t = d from ht, hd]
      exact ⟨.refl _, [], rfl, rfl⟩
    · obtain ⟨xs, hxs⟩ := stopWork_requeues (snap := snap) (s := d)
      have hsame := stopWork_holdsSame (snap := snap) (s := d)
      have hcounter : (stopWork snap d).fetch.counter = d.fetch.counter := by rw [stopWork_frameEq]
      rw [show t = stopWork snap d from ht]
      rw [hd] at hxs hsame hcounter ⊢
      exact ⟨hsame, xs, hcounter, hxs⟩
  obtain ⟨hsame, xs, hcounter, hsched⟩ := hsame
  refine ⟨fun h => ?_, hsame, sheetsInOrder_of_requeue hsame hcounter hsched, fun h hlock => ?_⟩
  · exact if_neg (mt hstops.mpr h)
  have ht : t = stopWork snap d := by
    change stop cause station pos launch serial s = _
    rw [stop, if_pos (hstops.mp h)]
    exact if_neg (by rw [show haltPath _ = d from rfl, hd]; simp [hlock])
  have hstate : d.run.state = .stopped := by rw [hd]
  have hdhist : d.history = s.history := by rw [hd]
  have hdpath : d.track.path = s.track.path := by rw [hd]
  have hframe : t = _ := ht.trans stopWork_frameEq
  rw [← ht, hd] at hframe
  have hhold (hs : s.run.hold = true) : t.run.hold = true := by
    rw [ht]
    exact stopWork_hold (by rw [hd]; exact hs)
  have hqueue : withoutHits (d.spoiled snap).report.queue = reports := by
    rw [spoiled_withoutHits, hd]
    rfl
  have hbreaks : d.breaksPiece d.track.path = true ↔ ∃ h p, breaks h p := by
    rw [breaksPiece_iff, hd]
    rfl
  refine ⟨by rw [hframe], by rw [hframe], by rw [hframe], hhold, by rw [hframe], by rw [hframe], by rw [hframe],
    by rw [hframe], by rw [hframe], by rw [hframe], by rw [hframe], by rw [hframe], by rw [hframe], by rw [hframe],
    ?_, ?_, ?_, ?_, ?_, ?_⟩
  · rw [ht, stopWork_history_dump hstate, hdhist]
  · intro hf
    rw [ht, stopWork_history_of_frozen hstate (hdhist ▸ hf), hdhist]
  · intro hf
    rw [ht] at hf ⊢
    rw [stopWork_entries hstate hf, hdhist, hdpath]
    rfl
  · intro hu hf
    rw [ht] at hf ⊢
    obtain ⟨k, hk, hlen, hentries⟩ := stopWork_entries_of_froze hstate (hdhist ▸ hu) hf
    refine ⟨k, hk, ?_, ?_⟩
    · rw [List.length_map, ← hdpath]
      exact hlen
    · rw [hentries, hdhist, hdpath]
      rfl
  · intro hnone
    obtain ⟨-, htrack, hrecords⟩ := stopWork_of_whole (snap := snap) (s := d) (mt hbreaks.mp hnone)
    rw [ht, hrecords, htrack]
    refine ⟨?_, hqueue⟩
    rw [hd]
    rfl
  · intro first p hb
    have hpiece : d.track.piece = some p := by
      obtain ⟨-, -, hp, -⟩ := hb
      rw [hd]
      exact hp
    obtain ⟨-, htrack, hrecords⟩ := stopWork_of_breaks (snap := snap) (hbreaks.mpr ⟨first, p, hb⟩) hpiece
    rw [ht, hrecords, htrack, withoutHits_append, hqueue]
    refine ⟨?_, ?_⟩
    · rw [hd]
      rfl
    · rw [hd]
      rfl

end
